-- ==== Sys2Proof/Word.lean ====
section
/-! DEFINITION. The widths of the manual (00_scope.md, Units and conventions) and the 32-byte block. -/

namespace Sys2Proof

/-- One byte of memory or of a frame. -/
abbrev Byte := BitVec 8

/-- A management register (00: "Management registers are 16 bits wide"). -/
abbrev Word16 := BitVec 16

/-- A pair of management registers read as one value. -/
abbrev Word32 := BitVec 32

/-- A byte address: 40 bits (00, Units). -/
abbrev Addr := BitVec 40

/-- One position for each byte of a block; position `i` is bit `i` (R30, R120). -/
abbrev ByteMask := BitVec 32

/-- The 32 bytes of a block, byte 0 at the block's address (00, Units). -/
abbrev Block := Vector Byte 32

end Sys2Proof
end

