-- ==== Sys2Proof/Syntax.lean ====
section
/-! DEFINITION. The commands of the block: one constructor for each row of spec/opcode_table.json, with the operands the
chapters give the row. -/

namespace Sys2Proof

/-- A READ request of the system port (R119, 10.7). -/
structure ReadReq where
  initiator : BitVec 4
  tag : BitVec 6
  addr : Addr
  len : BitVec 6
  deriving DecidableEq, Repr

/-- A WRITE request of the system port (R120, 10.7): one data byte for each set mask position, in ascending order. -/
structure WriteReq where
  initiator : BitVec 4
  tag : BitVec 6
  addr : Addr
  mask : ByteMask
  marker : Bool
  data : List Byte
  deriving DecidableEq, Repr

/-- A request with the lane it arrives on (R116). -/
inductive Request where
  | read (r : ReadReq)
  | write (w : WriteReq)
  deriving DecidableEq, Repr

/-- How a READ, READ_NEXT or foreign frame comes on the management line (R155, R156): `ones` are the consecutive ones ahead
of its start field; `cut = some k` says MCK stops after `k` bit times counted from the first bit of the start field. -/
structure Line where
  ones : Nat
  cut : Option Nat
  deriving DecidableEq, Repr

/-- How a WRITE frame comes on the management line: beside `Line`, its two unchecked turnaround bits and whether its parity
bit is the wrong one (R159). -/
structure WriteLine where
  line : Line
  turn : BitVec 2
  badParity : Bool
  deriving DecidableEq, Repr

/-- An inbound replication frame as received, before any check (R98, R99). -/
structure RawFrame where
  kind : Byte
  length : BitVec 16
  body : List Byte
  check : Word32
  deriving DecidableEq, Repr

/-- The commands, in the order of spec/opcode_table.json. -/
inductive Instr where
  /-- FREEZE (R8): a WRITE of code 1 to CMD. -/
  | freeze (w : WriteLine)
  /-- ABORT (R23): a WRITE of code 2 to CMD. -/
  | abort (w : WriteLine)
  /-- INVALIDATE_BASELINE (R24): a WRITE of code 3 to CMD. -/
  | invalidateBaseline (w : WriteLine)
  /-- WINDOW_WRITE (R61): a WRITE of code 4 to CMD. -/
  | windowWrite (w : WriteLine)
  /-- WINDOW_READ (R64): a WRITE of code 5 to CMD. -/
  | windowRead (w : WriteLine)
  /-- HISTORY_READ (R171): a WRITE of code 6 to CMD. -/
  | historyRead (w : WriteLine)
  /-- CLEAR_COUNTERS (R172): a WRITE of code 7 to CMD. -/
  | clearCounters (w : WriteLine)
  /-- RESET (R173): a WRITE of code 8 to CMD. -/
  | reset (w : WriteLine)
  /-- INVALID_COMMAND_CODE (R169): a WRITE to CMD of a code outside 1 to 8. -/
  | invalidCommandCode (w : WriteLine) (code : Word16)
  /-- CONTROLLED_RESET_FINAL_STEP (R174, R175). -/
  | controlledResetFinalStep
  /-- POWER_ON_RESET (R27, R161): the straps sampled at its end, and the level of FREEZE_REQ then (R10). -/
  | powerOnReset (straps : BitVec 4) (freezeReqHigh : Bool)
  /-- SPORT_RESET (R135). -/
  | sportReset
  /-- FREEZE_REQ_EDGE (R10): a sample that finds the line high. -/
  | freezeReqEdge
  /-- LOCK_GAINED (R91). -/
  | lockGained
  /-- LOSS_OF_LOCK (R90). -/
  | lossOfLock
  /-- REQUEST_ARRIVES (R117). -/
  | requestArrives (r : Request)
  /-- TAKE_READ (R124): the head of the read lane is examined. -/
  | takeRead
  /-- TAKE_WRITE (R125): the head of the write lane is examined. -/
  | takeWrite
  /-- GRANT (R144). -/
  | grant
  /-- COMPLETION (R141): the status, and the 32 bytes of a block read that completes OK. -/
  | completion (ok : Bool) (data : Block)
  /-- PLACE_FILL_FRAME (R77). -/
  | placeFillFrame
  /-- BUILD_END (R84). -/
  | buildEnd
  /-- START_TRANSMISSION (R96). -/
  | startTransmission
  /-- START_ABANDON (R113). -/
  | startAbandon
  /-- TRANSMISSION_END (R97). -/
  | transmissionEnd
  /-- ACK (R101) that passed the check of R99. -/
  | ack (epoch : Word16) (n : Word32)
  /-- NAK (R102) that passed the check of R99. -/
  | nak (epoch : Word16) (n : Word32)
  /-- PAUSE (R103) that passed the check of R99. -/
  | pause (q : Word16)
  /-- COMMIT (R106) that passed the check of R99. -/
  | commit (epoch : Word16)
  /-- REJECT (R107) that passed the check of R99. -/
  | reject (epoch : Word16) (reason : Byte)
  /-- INBOUND_FRAME_DISCARDED (R99): a frame as received, which the check discards. -/
  | inboundFrameDiscarded (f : RawFrame)
  /-- ACK_TIMER_EXPIRY (R109). -/
  | ackTimerExpiry
  /-- PAUSE_TIMER_EXPIRY (R103). -/
  | pauseTimerExpiry
  /-- CONTINUOUS_PAUSE_EXPIRY (R105). -/
  | continuousPauseExpiry
  /-- STALL_TIMER_EXPIRY (R14). -/
  | stallTimerExpiry
  /-- EPOCH_TIMER_EXPIRY (R15). -/
  | epochTimerExpiry
  /-- FRAME_TIMER_EXPIRY (R156). -/
  | frameTimerExpiry
  /-- READ_NEXT (R160): its register number field is not used, and may hold any value. -/
  | readNext (l : Line) (field : BitVec 9)
  /-- INVALID_OPCODE_FRAME (R157): addressed to the part, opcode 00. -/
  | invalidOpcodeFrame (w : WriteLine) (reg : BitVec 9) (data : Word16)
  /-- FRAME_FOR_OTHER_DEVICE (R157): any opcode and any bits after a device address that is not the part's. -/
  | frameForOtherDevice (w : WriteLine) (opcode : BitVec 2) (device : BitVec 4) (reg : BitVec 9) (data : Word16)
  /-- READ_PAIR_LOW (R164): a READ of the low half of a pair. -/
  | readPairLow (l : Line) (reg : BitVec 9)
  /-- READ_PAIR_HIGH (R165): a READ of the high half of a pair. -/
  | readPairHigh (l : Line) (reg : BitVec 9)
  /-- WRITE_PAIR_LOW (R166): a WRITE of the low half of a pair. -/
  | writePairLow (w : WriteLine) (reg : BitVec 9) (data : Word16)
  /-- COUNTER_READ (R185): a READ of an 8-bit or 16-bit counter. -/
  | counterRead (l : Line) (reg : BitVec 9)
  /-- JRN_PEAK_READ (R189). -/
  | jrnPeakRead (l : Line)
  /-- ALERT_STAT_READ (R180): a READ of the low half of ALERT_STAT. -/
  | alertStatRead (l : Line)
  /-- ALERT_STAT_TEST_WRITE (R181): the committing WRITE of the high half of ALERT_STAT. -/
  | alertStatTestWrite (w : WriteLine) (data : Word16)
  /-- ALERT_EN_WRITE (R179): the committing WRITE of the high half of ALERT_EN. -/
  | alertEnWrite (w : WriteLine) (data : Word16)
  /-- ALERT_DIS_WRITE (R179): the committing WRITE of the high half of ALERT_DIS. -/
  | alertDisWrite (w : WriteLine) (data : Word16)
  /-- DRN_FAULT_INFO_WRITE (R54). -/
  | drnFaultInfoWrite (w : WriteLine) (data : Word16)
  /-- JRN_HWM_WRITE (R40). -/
  | jrnHwmWrite (w : WriteLine) (data : Word16)
  /-- JRN_LWM_WRITE (R40). -/
  | jrnLwmWrite (w : WriteLine) (data : Word16)
  /-- JRN_CFG_WRITE (R47). -/
  | jrnCfgWrite (w : WriteLine) (data : Word16)
  /-- STALL_LIMIT_WRITE (R14). -/
  | stallLimitWrite (w : WriteLine) (data : Word16)
  /-- EPOCH_LIMIT_WRITE (R15). -/
  | epochLimitWrite (w : WriteLine) (data : Word16)
  /-- FRZ_CFG_WRITE (R192). -/
  | frzCfgWrite (w : WriteLine) (data : Word16)
  /-- LNK_ACK_TMO_WRITE (R111). -/
  | lnkAckTmoWrite (w : WriteLine) (data : Word16)
  /-- LNK_RETRY_LIM_WRITE (R111). -/
  | lnkRetryLimWrite (w : WriteLine) (data : Word16)
  /-- LNK_PAUSE_LIM_WRITE (R111). -/
  | lnkPauseLimWrite (w : WriteLine) (data : Word16)
  /-- ARB_CFG_WRITE (R146). -/
  | arbCfgWrite (w : WriteLine) (data : Word16)
  /-- TICK_DIV_WRITE (R192). -/
  | tickDivWrite (w : WriteLine) (data : Word16)
  /-- TICK_DIVIDER_APPLIED (R192). -/
  | tickDividerApplied
  /-- WRITE_REGISTER (R159): a WRITE of a register without behaviour of its own, read-only or not implemented. -/
  | writeRegister (w : WriteLine) (reg : BitVec 9) (data : Word16)
  /-- WRITE_PAIR_HIGH (R166): a WRITE of the high half of a pair. -/
  | writePairHigh (w : WriteLine) (reg : BitVec 9) (data : Word16)
  /-- START_FIELD_MISMATCH (R155): the preamble, the first start bit, and the start bits up to the one, 0 to 2, that
  differs from 0, 1, 0. -/
  | startFieldMismatch (ones : Nat) (at_ : Fin 3)
  /-- TICK (R103): one tick, at which FREEZE_REQ is sampled (R10). -/
  | tick (freezeReqHigh : Bool)
  deriving DecidableEq, Repr

end Sys2Proof
end

