-- ==== Sys2Proof/Decode.lean ====
section
/-! DEFINITION. The commands that a word of bits spells. The rows of spec/opcode_table.json give no bits: the part's events
come from outside as transactions and frames, not as instruction words, so no word spells a command. -/

namespace Sys2Proof

/-- The command that the table's bits spell: none, since no row of the table gives bits. -/
def decodeTableWord (_nbits _w : Nat) : Option Instr := none

end Sys2Proof
end

