-- ==== Sys2Proof/Config.lean ====
section
/-! DEFINITION. The sizes the manual fixes for the part, each with its rule. The manual leaves no result of a command
open, so there is no free value here (assumption log 25). -/

namespace Sys2Proof.Config

/-- R31: the journal holds at most 2048 entries. -/
def journalCapacity : Nat := 2048

/-- R48: the drain engine keeps at most 8 drain writes in flight. -/
def drainInFlight : Nat := 8

/-- R67: positions of each granule map. -/
def mapPositions : Nat := 16384

/-- R94: slots of the retransmit buffer. -/
def slotCount : Nat := 16

/-- R116: requests a lane holds. -/
def laneDepth : Nat := 8

/-- R128: records of the outstanding read list. -/
def readRecords : Nat := 32

/-- R129: records of the outstanding write list. -/
def writeRecords : Nat := 16

/-- R130: entries and claims of the live queue. -/
def liveSlots : Nat := 16

/-- R139: entries of the memory queue. -/
def memorySlots : Nat := 32

/-- R140: memory credits after a reset of the port. -/
def memoryCredits : Nat := 16

/-- R26: records of the epoch history. -/
def historyDepth : Nat := 4

/-- R155: ones that must precede a start field. -/
def preambleOnes : Nat := 16

/-- R156: ticks without a rising edge of MCK that drop a frame. -/
def frameTimeout : Nat := 64

/-- 00, Units: ticks in one millisecond. -/
def ticksPerMs : Nat := 1000

/-- The device address State.reset holds before any power-on reset samples the straps. DESIGN CHOICE (log 20): the straps
are board wiring; the POWER_ON_RESET command samples the address it is given. unsafe. -/
def unsampledStraps : BitVec 4 := 0

end Sys2Proof.Config
end

