-- ==== Sys2Proof/Machine/RegMap.lean ====
section
/-! DEFINITION. The register map (10.4) and the access types (10.3): which register a number names, and what a read and a
write of it may do. -/

namespace Sys2Proof.Machine

/-- The 32-bit register pairs of 10.4, in the order of their numbers. -/
inductive Pair where
  | alertStat | alertMask | alertEn | alertDis
  | histSent | histResent | histFdur | histDigest
  | drnFaultAddr | winStgBase | winStgMapoff
  | lnkAckpt | lnkSentcnt
  | spLaneStat | spListStat | memQStat
  | framesSent | framesResent | jrnAllocs | jrnMerges
  deriving DecidableEq, Repr

/-- The 16-bit registers of 10.4, in the order of their numbers. -/
inductive Reg where
  | cmd | cmdArg | cmdStat | mgmtStat | tickDiv
  | frzStat | frzCfg | stallLimit | epochLimit
  | histEpoch | histInfo | histGran
  | jrnOcc | jrnStat | jrnCfg | jrnHwm | jrnLwm | drnFaultInfo | drnFaultEpoch
  | winStgSize | winStgCtl | mapCollCnt | mapImgCnt | capStat | capRemain
  | lnkStat | lnkPauseRem | lnkAckTmo | lnkRetryLim | lnkPauseLim
  | arbCfg
  | naksRcvd | ackTimeouts | pausesRcvd | badFramesRcvd | epochsCommitted | epochsBroken | jrnPeak | writeStalls
  | formatErrors | memReadErrors | memWriteErrors | markersRefused | freezesRefused | tagErrors | drainLosses
  | creditOverruns | mgmtFrameErrors | lockLosses
  deriving DecidableEq, Repr

/-- What a register number names: a 16-bit register, a half of a pair, or nothing (R191: unimplemented). -/
inductive RegName where
  | word (r : Reg)
  | low (p : Pair)
  | high (p : Pair)
  | unimplemented
  deriving DecidableEq, Repr

/-- The number of a pair's low half; its high half has the next number (10.4). -/
def Pair.number : Pair → Nat
  | .alertStat => 0x010 | .alertMask => 0x012 | .alertEn => 0x014 | .alertDis => 0x016
  | .histSent => 0x02C | .histResent => 0x02E | .histFdur => 0x030 | .histDigest => 0x032
  | .drnFaultAddr => 0x046 | .winStgBase => 0x050 | .winStgMapoff => 0x054
  | .lnkAckpt => 0x062 | .lnkSentcnt => 0x064
  | .spLaneStat => 0x070 | .spListStat => 0x072 | .memQStat => 0x074
  | .framesSent => 0x080 | .framesResent => 0x082 | .jrnAllocs => 0x084 | .jrnMerges => 0x086

/-- The number of a 16-bit register (10.4). -/
def Reg.number : Reg → Nat
  | .cmd => 0x000 | .cmdArg => 0x001 | .cmdStat => 0x002 | .mgmtStat => 0x003 | .tickDiv => 0x004
  | .frzStat => 0x020 | .frzCfg => 0x021 | .stallLimit => 0x022 | .epochLimit => 0x023
  | .histEpoch => 0x028 | .histInfo => 0x029 | .histGran => 0x02A
  | .jrnOcc => 0x040 | .jrnStat => 0x041 | .jrnCfg => 0x042 | .jrnHwm => 0x043 | .jrnLwm => 0x044
  | .drnFaultInfo => 0x045 | .drnFaultEpoch => 0x048
  | .winStgSize => 0x052 | .winStgCtl => 0x053 | .mapCollCnt => 0x056 | .mapImgCnt => 0x057
  | .capStat => 0x058 | .capRemain => 0x059
  | .lnkStat => 0x060 | .lnkPauseRem => 0x061 | .lnkAckTmo => 0x066 | .lnkRetryLim => 0x067 | .lnkPauseLim => 0x068
  | .arbCfg => 0x076
  | .naksRcvd => 0x088 | .ackTimeouts => 0x089 | .pausesRcvd => 0x08A | .badFramesRcvd => 0x08B
  | .epochsCommitted => 0x08C | .epochsBroken => 0x08D | .jrnPeak => 0x08E | .writeStalls => 0x08F
  | .formatErrors => 0x090 | .memReadErrors => 0x091 | .memWriteErrors => 0x092
  | .markersRefused => 0x093 | .freezesRefused => 0x094 | .tagErrors => 0x095 | .drainLosses => 0x096
  | .creditOverruns => 0x097 | .mgmtFrameErrors => 0x098 | .lockLosses => 0x099

/-- Every pair of the map. -/
def allPairs : List Pair :=
  [.alertStat, .alertMask, .alertEn, .alertDis, .histSent, .histResent, .histFdur, .histDigest, .drnFaultAddr, .winStgBase,
   .winStgMapoff, .lnkAckpt, .lnkSentcnt, .spLaneStat, .spListStat, .memQStat, .framesSent, .framesResent, .jrnAllocs,
   .jrnMerges]

/-- Every 16-bit register of the map. -/
def allRegs : List Reg :=
  [.cmd, .cmdArg, .cmdStat, .mgmtStat, .tickDiv, .frzStat, .frzCfg, .stallLimit, .epochLimit, .histEpoch, .histInfo,
   .histGran, .jrnOcc, .jrnStat, .jrnCfg, .jrnHwm, .jrnLwm, .drnFaultInfo, .drnFaultEpoch, .winStgSize, .winStgCtl]
  ++ [.mapCollCnt, .mapImgCnt, .capStat, .capRemain, .lnkStat, .lnkPauseRem, .lnkAckTmo, .lnkRetryLim, .lnkPauseLim, .arbCfg,
   .naksRcvd, .ackTimeouts, .pausesRcvd, .badFramesRcvd, .epochsCommitted, .epochsBroken, .jrnPeak, .writeStalls,
   .formatErrors, .memReadErrors, .memWriteErrors, .markersRefused, .freezesRefused, .tagErrors, .drainLosses,
   .creditOverruns, .mgmtFrameErrors, .lockLosses]

/-- The register map of 10.4 as a function of the register number. -/
def regAt (n : Nat) : RegName :=
  match allRegs.find? (fun r => r.number == n) with
  | some r => .word r
  | none =>
    match allPairs.find? (fun p => p.number == n) with
    | some p => .low p
    | none =>
      match allPairs.find? (fun p => p.number + 1 == n) with
      | some p => .high p
      | none => .unimplemented

/-- Type RC of 10.3: the counters of 8 and 16 bits, which a read clears (R185), JRN_PEAK among them (R189). -/
def Reg.clearsOnRead : Reg → Bool
  | .naksRcvd | .ackTimeouts | .pausesRcvd | .badFramesRcvd | .epochsCommitted | .epochsBroken | .jrnPeak | .writeStalls
  | .formatErrors | .memReadErrors | .memWriteErrors | .markersRefused | .freezesRefused | .tagErrors | .drainLosses
  | .creditOverruns | .mgmtFrameErrors | .lockLosses => true
  | _ => false

/-- The registers whose WRITE has a row of its own in the table of operations. -/
def Reg.hasWriteRow : Reg → Bool
  | .cmd | .tickDiv | .frzCfg | .stallLimit | .epochLimit | .jrnCfg | .jrnHwm | .jrnLwm | .drnFaultInfo | .lnkAckTmo
  | .lnkRetryLim | .lnkPauseLim | .arbCfg => true
  | _ => false

end Sys2Proof.Machine
end

