-- ==== Sys2Proof/Machine/Wire.lean ====
section
/-! DEFINITION. What stands on the replication link below the frame's fields: the CRC-32 of R98 and R85, little-endian
fields (R98, 10.9), and the check of an inbound frame (R99). -/

namespace Sys2Proof.Machine

/-- The initial value of the CRC of R85 and R98: all ones. -/
def crcInit : Word32 := BitVec.allOnes 32

/-- One bit of the reflected CRC with polynomial 0x04C11DB7 (0xEDB88320 with its bits reversed). -/
def crcBit (c : Word32) : Word32 :=
  if c.getLsbD 0 then (c >>> 1) ^^^ 0xEDB88320#32 else c >>> 1

/-- `k` bits of the CRC. -/
def crcBits : Nat → Word32 → Word32
  | 0, c => c
  | k + 1, c => crcBits k (crcBit c)

/-- One byte of the CRC, least significant bit first (reflected input). -/
def crcByte (c : Word32) (b : Byte) : Word32 := crcBits 8 (c ^^^ b.setWidth 32)

/-- The CRC in progress over further bytes. -/
def crcUpdate (c : Word32) (bs : List Byte) : Word32 := bs.foldl crcByte c

/-- The final inversion (R85, R98). -/
def crcFinal (c : Word32) : Word32 := ~~~c

/-- The CRC-32 of a sequence of bytes. -/
def crc32 (bs : List Byte) : Word32 := crcFinal (crcUpdate crcInit bs)

/-- `k` bytes of a number, little-endian (R98). -/
def leBytes : Nat → Nat → List Byte
  | 0, _ => []
  | k + 1, n => BitVec.ofNat 8 n :: leBytes k (n / 256)

/-- The number that little-endian bytes hold. -/
def leValue : List Byte → Nat
  | [] => 0
  | b :: bs => b.toNat + 256 * leValue bs

/-- The codes of the inbound kinds (R193). -/
def kindAck : Byte := 0x11
/-- NAK. -/
def kindNak : Byte := 0x12
/-- PAUSE. -/
def kindPause : Byte := 0x13
/-- COMMIT. -/
def kindCommit : Byte := 0x14
/-- REJECT. -/
def kindReject : Byte := 0x15

/-- The body length of each inbound kind (R193); `none` for every other kind byte, outbound kinds among them (R99). -/
def inboundLength (kind : Byte) : Option Nat :=
  if kind = kindAck ∨ kind = kindNak then some 6
  else if kind = kindPause ∨ kind = kindCommit then some 2
  else if kind = kindReject then some 4
  else none

end Sys2Proof.Machine

namespace Sys2Proof

open Machine

/-- The bytes an inbound frame's check covers: the kind, the length and the body, in that order (R98). -/
def RawFrame.covered (f : RawFrame) : List Byte := f.kind :: (leBytes 2 f.length.toNat ++ f.body)

/-- R99: the frame check matches, the kind is an inbound one, and the length is that of its kind (and the body has it). -/
def RawFrame.passes (f : RawFrame) : Bool :=
  decide (f.check = crc32 f.covered) &&
    (inboundLength f.kind == some f.length.toNat) && (f.body.length == f.length.toNat)

/-- A 16-bit field of a body. -/
def RawFrame.field16 (f : RawFrame) (at_ : Nat) : Word16 := BitVec.ofNat 16 (leValue ((f.body.drop at_).take 2))

/-- A 32-bit field of a body. -/
def RawFrame.field32 (f : RawFrame) (at_ : Nat) : Word32 := BitVec.ofNat 32 (leValue ((f.body.drop at_).take 4))

end Sys2Proof
end

