-- ==== Sys2Proof/Machine/State.lean ====
section
/-! DEFINITION. The state of the part, block by block as 00_scope.md lists them, all of it plain data, and the state after
power-on reset. Counts, positions and timers are natural numbers; what software or a wire sees as a word is a bit vector. -/

namespace Sys2Proof.Machine

/-! ### Freeze controller (01) -/

/-- R1. -/
inductive FreezeState where
  | idle | frozen | draining
  deriving DecidableEq, Repr

/-- The kind of an epoch, requested or performed (R6). -/
inductive Kind where
  | full | delta
  deriving DecidableEq, Repr

/-- The source of a freeze request (R3). -/
inductive Source where
  | mgmt | line | marker
  deriving DecidableEq, Repr

/-- R2. -/
inductive EpochState where
  | capturing | sending | committed | broken
  deriving DecidableEq, Repr

/-- The causes of R19, in the order of their codes (10.6). -/
inductive BreakCause where
  | abort | epochLimit | journalFull | stallLimit | memRead | linkRetry | linkLost | pauseLimit | linkProtocol | rejected
  | reset
  deriving DecidableEq, Repr

/-- R3: a request waiting in the pending-freeze slot. -/
structure FreezeReq where
  source : Source
  kind : Kind
  deriving DecidableEq, Repr

/-- R25: the record of one epoch. -/
structure EpochRecord where
  number : Word16
  source : Source
  kindRequested : Kind
  kindPerformed : Kind
  state : EpochState
  cause : Option BreakCause
  granules : Nat
  framesSent : Nat
  framesResent : Nat
  duration : Nat
  digest : Option Word32
  deriving DecidableEq, Repr

/-- R14: why the write lane stalls. -/
inductive StallKind where
  | marker | exhaustion
  deriving DecidableEq, Repr

/-- The freeze controller (R27). -/
structure Frz where
  st : FreezeState
  slot : Option FreezeReq
  nextEpoch : Word16
  /-- Newest first (R26). -/
  history : List EpochRecord
  /-- True for VALID (R24). -/
  baseline : Bool
  stall : Option StallKind
  stallTimer : Nat
  epochTimer : Nat
  lineKind : Kind
  markerKind : Kind
  stallLimit : Word16
  epochLimit : Word16
  /-- FREEZE_REQ is low: its level at the last sample, or as a power-on reset ended (R10, log 5). -/
  lineSeenLow : Bool
  deriving DecidableEq, Repr

/-! ### Write journal and drain engine (02) -/

/-- R32. -/
inductive EntryState where
  | held | pending | issued
  deriving DecidableEq, Repr

/-- R30: a journal entry. Data bytes whose mask position is clear carry no value and are kept 0 (log 10). -/
structure JEntry where
  block : Addr
  window : Nat
  epoch : Word16
  mask : ByteMask
  data : Block
  st : EntryState
  redirty : Bool
  retry : Nat
  deriving DecidableEq, Repr

/-- R42. -/
inductive Policy where
  | hold | break_
  deriving DecidableEq, Repr

/-- R54: the drain fault record. -/
structure DrainFault where
  block : Addr
  window : Nat
  epoch : Word16
  count : Nat
  deriving DecidableEq, Repr

/-- The write journal (R31, R57). -/
structure Jrn where
  /-- The entries in allocation order, oldest first. -/
  entries : List JEntry
  armed : Bool
  hwm : Word16
  lwm : Word16
  policy : Policy
  fault : DrainFault
  deriving DecidableEq, Repr

/-! ### Windows and granule maps (03) -/

/-- R58. -/
inductive WinKind where
  | off | image | fill
  deriving DecidableEq, Repr

/-- R58: a window descriptor; its index is its place in the table. -/
structure Window where
  kind : WinKind
  base : Addr
  size : Nat
  fill : Byte
  mapOffset : Nat
  deriving DecidableEq, Repr

/-- The window table and the staging registers (R60, R73). -/
structure Win where
  /-- Eight descriptors, index 0 first. -/
  table : List Window
  stgBase : Word32
  stgSize : Word16
  stgKind : BitVec 2
  stgFill : Byte
  stgMapoff : Word32
  deriving DecidableEq, Repr

/-- R67: the two granule maps, each as the ascending list of its marked positions. -/
structure Maps where
  coll : List Nat
  img : List Nat
  deriving DecidableEq, Repr

/-! ### Image copier (04) -/

/-- R74. -/
inductive CopierState where
  | idle | copying | closing
  deriving DecidableEq, Repr

/-- R75: a frame of the frame plan. -/
inductive PlanFrame where
  | opening
  | data (window granule chunk : Nat)
  | fill (window : Nat)
  | closing
  deriving DecidableEq, Repr

/-- The image copier (R74). -/
structure Cap where
  st : CopierState
  /-- The frame plan; a frame's place in it is its sequence number (R75). -/
  plan : List PlanFrame
  /-- The place of the next frame to take a slot. -/
  pos : Nat
  fence : Nat
  digest : Word32
  dataBuilt : Nat
  fillBuilt : Nat
  /-- Reads issued and not completed, the stale ones among them (R74). -/
  reads : Nat
  stale : Nat
  remain : Nat
  deriving DecidableEq, Repr

/-! ### Replication link controller (05) -/

/-- R92. -/
inductive LinkCtl where
  | idle | sending | tail | awaitCommit
  deriving DecidableEq, Repr

/-- R107, with NONE of R114. -/
inductive RejectReason where
  | none | noBaseline | noSpace | other
  deriving DecidableEq, Repr

/-- An entry of OPEN's descriptor list (R76). -/
structure Descriptor where
  window : Nat
  kind : WinKind
  base : Addr
  size : Nat
  fill : Byte
  deriving DecidableEq, Repr

/-- The outbound frames with their fields (R76 to R78, R84, R98, R193). -/
inductive Frame where
  | opening (epoch : Word16) (kind : Kind) (descriptors : List Descriptor) (granules : Nat)
  | data (epoch : Word16) (seq : Nat) (window chunk granule : Nat) (payload : List Byte)
  | fill (epoch : Word16) (seq : Nat) (window : Nat) (byte : Byte) (size : Nat)
  | closing (epoch : Word16) (seq : Nat) (dataCount fillCount : Nat) (digest : Word32)
  | abandon (epoch : Word16) (cause : BreakCause)
  deriving DecidableEq, Repr

/-- R94; FREE slots are not listed (log 9). -/
inductive SlotState where
  | filling | ready | sent
  deriving DecidableEq, Repr

/-- An occupied slot of the retransmit buffer (R94); `issued` counts the reads issued for a FILLING slot (R80). -/
structure Slot where
  st : SlotState
  seq : Nat
  frame : Frame
  issued : Nat
  deriving DecidableEq, Repr

/-- The replication link controller (R114). -/
structure Lnk where
  /-- True for UP (R89). -/
  up : Bool
  ctl : LinkCtl
  /-- The occupied slots in the order of their sequence numbers; the other slots of the 16 are FREE. -/
  slots : List Slot
  /-- The acknowledgement point A (R95). -/
  ackPt : Nat
  /-- The sent count N. -/
  sentCnt : Nat
  /-- The transmit point T. -/
  txPt : Nat
  curEpoch : Word16
  prevEpoch : Word16
  retry : Nat
  ackTimer : Nat
  pauseTimer : Nat
  contPause : Nat
  abandon : Option (Word16 × BreakCause)
  lastReject : RejectReason
  /-- The transmitter's own copy of the frame in transmission (R96). -/
  tx : Option Frame
  ackTmo : Word16
  retryLim : Word16
  pauseLim : Word16
  deriving DecidableEq, Repr

/-! ### System port (06) -/

/-- R37: the captured positions and bytes of a read. -/
structure Capture where
  mask : ByteMask
  data : Block
  deriving DecidableEq, Repr

/-- R128: a record of the outstanding read list; `id` is its number, by which queues refer to it (log 8). -/
structure ReadRec where
  id : Nat
  initiator : BitVec 4
  tag : BitVec 6
  addr : Addr
  len : BitVec 6
  silent : Bool
  capture : Option Capture
  deriving DecidableEq, Repr

/-- R129: a record of the outstanding write list. -/
structure WriteRec where
  id : Nat
  initiator : BitVec 4
  tag : BitVec 6
  silent : Bool
  claimed : Bool
  deriving DecidableEq, Repr

/-- R130: an entry of the live queue, referring to its outstanding record. -/
inductive LiveEntry where
  | read (block : Addr) (id : Nat)
  | write (block : Addr) (mask : ByteMask) (data : Block) (id : Nat)
  deriving DecidableEq, Repr

/-- R116. -/
inductive Lane where
  | read | write
  deriving DecidableEq, Repr

/-- R122. -/
inductive Status where
  | ok | memError | formatError | tagError
  deriving DecidableEq, Repr

/-- The system port (R138). -/
structure Sp where
  /-- Oldest first. -/
  rlane : List ReadReq
  wlane : List WriteReq
  rcred : Nat
  wcred : Nat
  rheld : Nat
  wheld : Nat
  reads : List ReadRec
  writes : List WriteRec
  /-- Oldest first. -/
  live : List LiveEntry
  deriving DecidableEq, Repr

/-! ### Memory port and arbiter (07) -/

/-- R139, R143. -/
inductive Requester where
  | live | drain | copier
  deriving DecidableEq, Repr

/-- R139: requester, access and reference of an entry of the memory queue. -/
inductive MemAccess where
  | liveRead (id : Nat)
  | liveWrite (id : Nat) (mask : ByteMask) (data : Block)
  | drain (mask : ByteMask) (data : Block)
  | copier
  deriving DecidableEq, Repr

/-- R139: an entry of the memory queue; `issued` is false while it is WAITING. -/
structure MemEntry where
  access : MemAccess
  block : Addr
  issued : Bool
  deriving DecidableEq, Repr

/-- R146. -/
structure Weights where
  live : BitVec 4
  drain : BitVec 4
  copier : BitVec 4
  deriving DecidableEq, Repr

/-- The memory port and the arbiter (R154). -/
structure Mp where
  /-- Oldest first. -/
  queue : List MemEntry
  credits : Nat
  pos : Requester
  grants : Nat
  /-- ARB_CFG as stored. -/
  cfg : Weights
  /-- The weights of the round in progress (R146). -/
  cur : Weights
  deriving DecidableEq, Repr

/-! ### Management interface (08) -/

/-- R155. -/
inductive RxPhase where
  | hunt | start | header | turnaround | data | parity
  deriving DecidableEq, Repr

/-- What the frame in progress is, once its header has been sampled (R157 to R160). -/
inductive RxRole where
  | unknown | otherDevice | invalidOpcode | read (value : Word16) | write
  deriving DecidableEq, Repr

/-- R155, R156: the frame receiver. -/
structure Receiver where
  phase : RxPhase
  ones : Nat
  /-- The bits of the field in progress in START, of the frame after the start field otherwise, newest first. -/
  bits : List Bool
  role : RxRole
  timer : Nat
  deriving DecidableEq, Repr

/-- R163: the wide-access latch. -/
inductive Latch where
  | invalid
  | capture (p : Pair) (value : Word32)
  | lowWritten (p : Pair) (value : Word16)
  deriving DecidableEq, Repr

/-- R168. -/
inductive CmdResult where
  | none | ok | refusedState | refusedArgument | cancelled
  deriving DecidableEq, Repr

/-- R171: the history staging registers. -/
structure HistStaging where
  epoch : Word16
  info : Word16
  gran : Word16
  sent : Word32
  resent : Word32
  fdur : Word32
  digest : Word32
  deriving DecidableEq, Repr

/-- The management interface (R160 to R163, R168, R192). -/
structure Mgmt where
  rx : Receiver
  lastReg : BitVec 9
  latch : Latch
  arg : Word16
  busy : Bool
  rejected : Bool
  result : CmdResult
  code : Nat
  hist : HistStaging
  straps : BitVec 4
  /-- TICK_DIV as stored. -/
  tickDiv : Word16
  /-- The divider of the tick in progress (R192). -/
  tickLen : Word16
  deriving DecidableEq, Repr

/-! ### Alert unit and statistics (09) -/

/-- R177: the alert events, in the order of their numbers. -/
inductive AlertEvent where
  | epochBegun | captureDone | epochCommitted | epochBroken | drainDone | journalHigh | writeStall | markerRefused
  | freezeRefused | memError | drainLoss | linkUp | linkDown | linkRetry | portProtocol | mgmtFrameError | cmdDone
  deriving DecidableEq, Repr

/-- R178, R179: status and mask, bit `n` for event `n`. -/
structure Alert where
  status : BitVec 17
  mask : BitVec 17
  deriving DecidableEq, Repr

/-- R184: the statistics counters. -/
structure Stats where
  framesSent : Nat
  framesResent : Nat
  naksRcvd : Nat
  ackTimeouts : Nat
  pausesRcvd : Nat
  badFramesRcvd : Nat
  epochsCommitted : Nat
  epochsBroken : Nat
  jrnAllocs : Nat
  jrnMerges : Nat
  jrnPeak : Nat
  writeStalls : Nat
  markersRefused : Nat
  freezesRefused : Nat
  formatErrors : Nat
  tagErrors : Nat
  memReadErrors : Nat
  memWriteErrors : Nat
  drainLosses : Nat
  creditOverruns : Nat
  mgmtFrameErrors : Nat
  lockLosses : Nat
  deriving DecidableEq, Repr

/-! ### Outputs -/

/-- What the part puts on its outputs (10.7 to 10.10), each in the event that produces it (log 7). -/
inductive Output where
  | readDone (initiator : BitVec 4) (tag : BitVec 6) (status : Status) (data : List Byte)
  | writeDone (initiator : BitVec 4) (tag : BitVec 6) (status : Status)
  | creditReturn (lane : Lane)
  | resetAck (readCredits writeCredits : Nat)
  | memRead (block : Addr)
  | memWrite (block : Addr) (mask : ByteMask) (data : Block)
  | memReset
  /-- A frame starts transmission; the bytes are those it puts on the line if nothing cuts it. -/
  | frameStart (bytes : List Byte)
  | frameEnd
  | frameCut
  /-- The data and the parity bit the part has driven on MDA at the end of a read frame (R158). -/
  | mdaWord (value : Word16) (parity : Bool)
  deriving DecidableEq, Repr

/-! ### The machine -/

/-- The whole part, the commands waiting for it and what it has put out. -/
structure State where
  frz : Frz
  jrn : Jrn
  win : Win
  maps : Maps
  cap : Cap
  lnk : Lnk
  sp : Sp
  mp : Mp
  mgmt : Mgmt
  alert : Alert
  stats : Stats
  /-- A controlled reset is in progress: requests are refused and credits withheld (R28, R137, R173). -/
  resetting : Bool
  /-- The commands waiting, first in, first out. -/
  pending : List Instr
  /-- The outputs so far, oldest first (log 7). -/
  out : List Output
  deriving DecidableEq, Repr

/-- The reasons a step faults: none. The manual gives every event an outcome in every state (log 25); raised by nobody,
safe. -/
inductive Fault where
  deriving DecidableEq, Repr

/-- The reasons a step is refused. -/
inductive Refusal where
  /-- Raised by an arm of exec whose command has no meaning yet; no arm is. Safe. -/
  | notModelled (mnemonic : String)
  deriving DecidableEq, Repr

/-! ### Reset -/

/-- R27. -/
def Frz.reset : Frz :=
  { st := .idle, slot := none, nextEpoch := 1, history := [], baseline := false, stall := none, stallTimer := 0,
    epochTimer := 0, lineKind := .delta, markerKind := .delta, stallLimit := 1000, epochLimit := 0, lineSeenLow := true }

/-- R54: the clear record. -/
def DrainFault.clear : DrainFault := { block := 0, window := 0, epoch := 0, count := 0 }

/-- R57. -/
def Jrn.reset : Jrn :=
  { entries := [], armed := true, hwm := 1792, lwm := 1024, policy := .hold, fault := DrainFault.clear }

/-- R58: an OFF descriptor of an empty table. -/
def Window.off : Window := { kind := .off, base := 0, size := 0, fill := 0, mapOffset := 0 }

/-- R73. -/
def Win.reset : Win :=
  { table := List.replicate 8 Window.off, stgBase := 0, stgSize := 0, stgKind := 0, stgFill := 0, stgMapoff := 0 }

/-- R73. -/
def Maps.reset : Maps := { coll := [], img := [] }

/-- R74. -/
def Cap.reset : Cap :=
  { st := .idle, plan := [], pos := 0, fence := 0, digest := crcInit, dataBuilt := 0, fillBuilt := 0, reads := 0, stale := 0,
    remain := 0 }

/-- R114. -/
def Lnk.reset : Lnk :=
  { up := false, ctl := .idle, slots := [], ackPt := 0, sentCnt := 0, txPt := 0, curEpoch := 0, prevEpoch := 0, retry := 0,
    ackTimer := 0, pauseTimer := 0, contPause := 0, abandon := none, lastReject := .none, tx := none, ackTmo := 200,
    retryLim := 4, pauseLim := 50 }

/-- R138. -/
def Sp.reset : Sp :=
  { rlane := [], wlane := [], rcred := Config.laneDepth, wcred := Config.laneDepth, rheld := 0, wheld := 0, reads := [],
    writes := [], live := [] }

/-- R146: LIVE 8, DRAIN 4, COPIER 4. -/
def Weights.reset : Weights := { live := 8, drain := 4, copier := 4 }

/-- R154. -/
def Mp.reset : Mp :=
  { queue := [], credits := Config.memoryCredits, pos := .live, grants := 0, cfg := Weights.reset, cur := Weights.reset }

/-- R155: HUNT with a count of 0. -/
def Receiver.idle : Receiver := { phase := .hunt, ones := 0, bits := [], role := .unknown, timer := 0 }

/-- R171. -/
def HistStaging.reset : HistStaging :=
  { epoch := 0, info := 0, gran := 0, sent := 0, resent := 0, fdur := 0, digest := 0 }

/-- R162, R168, R192. -/
def Mgmt.reset : Mgmt :=
  { rx := Receiver.idle, lastReg := 0, latch := .invalid, arg := 0, busy := false, rejected := false, result := .none,
    code := 0, hist := HistStaging.reset, straps := Config.unsampledStraps, tickDiv := 100, tickLen := 100 }

/-- R183: all clear, all masked. -/
def Alert.reset : Alert := { status := 0, mask := BitVec.allOnes 17 }

/-- R190. -/
def Stats.reset : Stats :=
  { framesSent := 0, framesResent := 0, naksRcvd := 0, ackTimeouts := 0, pausesRcvd := 0, badFramesRcvd := 0,
    epochsCommitted := 0, epochsBroken := 0, jrnAllocs := 0, jrnMerges := 0, jrnPeak := 0, writeStalls := 0,
    markersRefused := 0, freezesRefused := 0, formatErrors := 0, tagErrors := 0, memReadErrors := 0, memWriteErrors := 0,
    drainLosses := 0, creditOverruns := 0, mgmtFrameErrors := 0, lockLosses := 0 }

/-- The part right after power-on reset, with no command waiting and nothing put out. -/
def State.reset : State :=
  { frz := Frz.reset, jrn := Jrn.reset, win := Win.reset, maps := Maps.reset, cap := Cap.reset, lnk := Lnk.reset,
    sp := Sp.reset, mp := Mp.reset, mgmt := Mgmt.reset, alert := Alert.reset, stats := Stats.reset, resetting := false,
    pending := [], out := [] }

end Sys2Proof.Machine
end

