-- ==== Sys2Proof/Machine/Frames.lean ====
section
/-! DEFINITION. The outbound replication frames on the line: kinds, bodies and the frame check (05 R98, 10 R193 and 10.9). -/

namespace Sys2Proof.Machine

/-- The code of a kind (10.6). -/
def Kind.code : Kind → Nat
  | .full => 1
  | .delta => 2

/-- The code of a break cause (10.6). -/
def BreakCause.code : BreakCause → Nat
  | .abort => 1 | .epochLimit => 2 | .journalFull => 3 | .stallLimit => 4 | .memRead => 5 | .linkRetry => 6
  | .linkLost => 7 | .pauseLimit => 8 | .linkProtocol => 9 | .rejected => 10 | .reset => 11

/-- The kind byte of R193. -/
def Frame.kindByte : Frame → Nat
  | .opening .. => 0x01
  | .data .. => 0x02
  | .fill .. => 0x03
  | .closing .. => 0x04
  | .abandon .. => 0x05

/-- An OPEN descriptor, 16 bytes (10.9). -/
def Descriptor.bytes (d : Descriptor) : List Byte :=
  leBytes 1 d.window ++ leBytes 1 (if d.kind = .fill then 2 else if d.kind = .image then 1 else 0) ++ [d.fill, 0] ++
    leBytes 2 d.size ++ [0, 0] ++ leBytes 8 d.base.toNat

/-- The body of a frame (10.9). -/
def Frame.body : Frame → List Byte
  | .opening epoch kind ds g =>
    leBytes 2 epoch.toNat ++ leBytes 4 0 ++ leBytes 1 kind.code ++ leBytes 1 ds.length ++ leBytes 4 g ++
      ds.flatMap Descriptor.bytes
  | .data epoch seq w c g payload =>
    leBytes 2 epoch.toNat ++ leBytes 4 seq ++ leBytes 1 w ++ leBytes 1 c ++ leBytes 2 g ++ payload
  | .fill epoch seq w b size => leBytes 2 epoch.toNat ++ leBytes 4 seq ++ leBytes 1 w ++ [b] ++ leBytes 2 size
  | .closing epoch seq nd nf d =>
    leBytes 2 epoch.toNat ++ leBytes 4 seq ++ leBytes 4 nd ++ leBytes 1 nf ++ [0] ++ leBytes 4 d.toNat
  | .abandon epoch cause => leBytes 2 epoch.toNat ++ leBytes 1 cause.code ++ [0]

/-- The kind, the length and the body: what the frame check covers (R98). -/
def Frame.covered (f : Frame) : List Byte := leBytes 1 f.kindByte ++ leBytes 2 f.body.length ++ f.body

/-- R193: the frame as sent, its check least significant byte first. -/
def Frame.bytes (f : Frame) : List Byte := f.covered ++ leBytes 4 (crc32 f.covered).toNat

end Sys2Proof.Machine
end

