-- ==== Sys2Proof/Machine/Flags.lean ====
section
/-! DEFINITION. The flags and counts that events leave behind: alert status and ALERT_N (09, R177 to R182), the statistics
counters (09, R184 to R189), and the outputs. -/

namespace Sys2Proof.Machine

/-- The event number of R177. -/
def AlertEvent.number : AlertEvent → Nat
  | .epochBegun => 0 | .captureDone => 1 | .epochCommitted => 2 | .epochBroken => 3 | .drainDone => 4
  | .journalHigh => 5 | .writeStall => 6 | .markerRefused => 7 | .freezeRefused => 8 | .memError => 9 | .drainLoss => 10
  | .linkUp => 11 | .linkDown => 12 | .linkRetry => 13 | .portProtocol => 14 | .mgmtFrameError => 15 | .cmdDone => 16

/-- The status word with the event's bit alone. -/
def AlertEvent.bit (e : AlertEvent) : BitVec 17 := 1#17 <<< e.number

/-- R178: an unmasked event sets its status bit; a masked one leaves no trace. -/
def Alert.raise (a : Alert) (e : AlertEvent) : Alert :=
  if a.mask.getLsbD e.number then a else { a with status := a.status ||| e.bit }

/-- R181: a test write sets the bits that are one, whatever the mask. -/
def Alert.testWrite (a : Alert) (v : Word32) : Alert := { a with status := a.status ||| v.setWidth 17 }

/-- R179: ones of a commit to ALERT_EN unmask. -/
def Alert.enable (a : Alert) (v : Word32) : Alert := { a with mask := a.mask &&& ~~~(v.setWidth 17) }

/-- R179: ones of a commit to ALERT_DIS mask. -/
def Alert.disable (a : Alert) (v : Word32) : Alert := { a with mask := a.mask ||| v.setWidth 17 }

/-- R180: a low-half read of ALERT_STAT clears every status bit. -/
def Alert.clear (a : Alert) : Alert := { a with status := 0 }

/-- R182: ALERT_N is asserted while at least one status bit is set. -/
def Alert.asserted (a : Alert) : Bool := decide (a.status ≠ 0)

/-- The statistics counters by name (R184). -/
inductive Counter where
  | framesSent | framesResent | naksRcvd | ackTimeouts | pausesRcvd | badFramesRcvd | epochsCommitted | epochsBroken
  | jrnAllocs | jrnMerges | jrnPeak | writeStalls | markersRefused | freezesRefused | formatErrors | tagErrors
  | memReadErrors | memWriteErrors | drainLosses | creditOverruns | mgmtFrameErrors | lockLosses
  deriving DecidableEq, Repr

/-- R184: where a counter of each width stops. -/
def Counter.max : Counter → Nat
  | .framesSent | .framesResent | .jrnAllocs | .jrnMerges => 4294967295
  | .markersRefused | .freezesRefused | .tagErrors | .drainLosses | .creditOverruns | .mgmtFrameErrors | .lockLosses => 255
  | _ => 65535

/-- A counter's value. -/
def Stats.get (t : Stats) : Counter → Nat
  | .framesSent => t.framesSent | .framesResent => t.framesResent | .naksRcvd => t.naksRcvd
  | .ackTimeouts => t.ackTimeouts | .pausesRcvd => t.pausesRcvd | .badFramesRcvd => t.badFramesRcvd
  | .epochsCommitted => t.epochsCommitted | .epochsBroken => t.epochsBroken | .jrnAllocs => t.jrnAllocs
  | .jrnMerges => t.jrnMerges | .jrnPeak => t.jrnPeak | .writeStalls => t.writeStalls
  | .markersRefused => t.markersRefused | .freezesRefused => t.freezesRefused | .formatErrors => t.formatErrors
  | .tagErrors => t.tagErrors | .memReadErrors => t.memReadErrors | .memWriteErrors => t.memWriteErrors
  | .drainLosses => t.drainLosses | .creditOverruns => t.creditOverruns | .mgmtFrameErrors => t.mgmtFrameErrors
  | .lockLosses => t.lockLosses

/-- The counters with one of them set. -/
def Stats.set (t : Stats) (c : Counter) (n : Nat) : Stats :=
  match c with
  | .framesSent => { t with framesSent := n } | .framesResent => { t with framesResent := n }
  | .naksRcvd => { t with naksRcvd := n } | .ackTimeouts => { t with ackTimeouts := n }
  | .pausesRcvd => { t with pausesRcvd := n } | .badFramesRcvd => { t with badFramesRcvd := n }
  | .epochsCommitted => { t with epochsCommitted := n } | .epochsBroken => { t with epochsBroken := n }
  | .jrnAllocs => { t with jrnAllocs := n } | .jrnMerges => { t with jrnMerges := n }
  | .jrnPeak => { t with jrnPeak := n } | .writeStalls => { t with writeStalls := n }
  | .markersRefused => { t with markersRefused := n } | .freezesRefused => { t with freezesRefused := n }
  | .formatErrors => { t with formatErrors := n } | .tagErrors => { t with tagErrors := n }
  | .memReadErrors => { t with memReadErrors := n } | .memWriteErrors => { t with memWriteErrors := n }
  | .drainLosses => { t with drainLosses := n } | .creditOverruns => { t with creditOverruns := n }
  | .mgmtFrameErrors => { t with mgmtFrameErrors := n } | .lockLosses => { t with lockLosses := n }

/-- R184: a counter rises by one and stays at its maximum. -/
def Stats.count (t : Stats) (c : Counter) : Stats := t.set c (min (t.get c + 1) c.max)

/-- R189: an occupancy offered to JRN_PEAK. -/
def Stats.offerPeak (t : Stats) (occupancy : Nat) : Stats := { t with jrnPeak := max t.jrnPeak occupancy }

/-- R172, R190: every counter 0, JRN_PEAK the occupancy. -/
def Stats.cleared (occupancy : Nat) : Stats := { Stats.reset with jrnPeak := occupancy }

/-- An alert event is raised (R178). -/
def State.raise (s : State) (e : AlertEvent) : State := { s with alert := s.alert.raise e }

/-- A counter's event (R184). -/
def State.count (s : State) (c : Counter) : State := { s with stats := s.stats.count c }

/-- An output is produced (log 7). -/
def State.emit (s : State) (o : Output) : State := { s with out := s.out ++ [o] }

/-- MARKER_REFUSED is raised and MARKERS_REFUSED counted (R11, R187). -/
def State.markerRefused (s : State) : State := (s.raise .markerRefused).count .markersRefused

/-- FREEZE_REFUSED is raised and FREEZES_REFUSED counted (R10, R187). -/
def State.freezeRefused (s : State) : State := (s.raise .freezeRefused).count .freezesRefused

/-- MGMT_FRAME_ERROR is raised and MGMT_FRAME_ERRORS counted (R157, R159). -/
def State.mgmtFrameError (s : State) : State := (s.raise .mgmtFrameError).count .mgmtFrameErrors

end Sys2Proof.Machine
end

