-- ==== Sys2Proof/Machine/Operands.lean ====
section
/-! DEFINITION. The operands of system-port requests: blocks and offsets of addresses, byte masks, the bytes a mask selects,
and the format checks (R119, R120). -/

namespace Sys2Proof.Machine

/-- The block containing a byte address: its five low-order bits cleared (00, Units). -/
def blockOf (a : Addr) : Addr := a &&& ~~~31#40

/-- The offset of a byte address within its block. -/
def offsetOf (a : Addr) : Nat := a.toNat % 32

/-- How many positions of the mask below `i` are set. -/
def rank (mask : ByteMask) (i : Nat) : Nat := (List.range i).countP mask.getLsbD

/-- How many positions of the mask are set. -/
def setCount (mask : ByteMask) : Nat := rank mask 32

/-- Block bytes of a write: its data bytes stand at the set positions in ascending order (R120); 0 elsewhere (log 10). -/
def scatter (mask : ByteMask) (data : List Byte) : Block :=
  Vector.ofFn fun i => if mask.getLsbD i then data.getD (rank mask i) 0 else 0

/-- The bytes of `new` at the set positions laid over `old` (R35, R148). -/
def overlay (mask : ByteMask) (new old : Block) : Block :=
  Vector.ofFn fun i => if mask.getLsbD i then new[i] else old[i]

/-- The bytes of a block at the set positions, 0 elsewhere (R37). -/
def masked (mask : ByteMask) (data : Block) : Block :=
  Vector.ofFn fun i => if mask.getLsbD i then data[i] else 0

/-- `len` bytes of a block from an offset, ascending (R148). -/
def blockBytes (b : Block) (off len : Nat) : List Byte := (b.toList.drop off).take len

/-- The positions from `off` through `off + len - 1`. -/
def rangeMask (off len : Nat) : ByteMask := (BitVec.allOnes 32 >>> (32 - len)) <<< off

end Sys2Proof.Machine

namespace Sys2Proof

open Machine

/-- The block a READ reads. -/
def ReadReq.block (r : ReadReq) : Addr := blockOf r.addr

/-- The positions of its block a READ asks for (R37, R119). -/
def ReadReq.range (r : ReadReq) : ByteMask := rangeMask (offsetOf r.addr) r.len.toNat

/-- R119: length 0 or above 32, or a range that crosses a block boundary. -/
def ReadReq.formatError (r : ReadReq) : Bool :=
  decide (r.len.toNat = 0) || decide (32 < r.len.toNat) || decide (32 < offsetOf r.addr + r.len.toNat)

/-- The data of a WRITE as block bytes. -/
def WriteReq.block32 (w : WriteReq) : Block := scatter w.mask w.data

/-- R120: an empty mask, an address off a block boundary, or a wrong number of data bytes. -/
def WriteReq.formatError (w : WriteReq) : Bool :=
  decide (w.mask = 0) || decide (offsetOf w.addr ≠ 0) || decide (w.data.length ≠ setCount w.mask)

end Sys2Proof
end

