-- ==== Sys2Proof/Machine/Journal.lean ====
section
/-! DEFINITION. The write journal and its drain engine (02, R30 to R54): what happens to the entries. -/

namespace Sys2Proof.Machine

/-- R31: the number of entries held. -/
def Jrn.occupancy (j : Jrn) : Nat := j.entries.length

/-- R32: the number of ISSUED entries. -/
def Jrn.issuedCount (j : Jrn) : Nat := j.entries.countP fun e => decide (e.st = .issued)

/-- R31: the entry of a block. -/
def Jrn.find (j : Jrn) (b : Addr) : Option JEntry := j.entries.find? fun e => decide (e.block = b)

/-- The entry of a block changed in its place. -/
def Jrn.update (j : Jrn) (b : Addr) (f : JEntry → JEntry) : Jrn :=
  { j with entries := j.entries.map fun e => if e.block = b then f e else e }

/-- R35, R36: a merge; into an ISSUED entry it also sets the re-dirty flag. -/
def JEntry.merge (e : JEntry) (mask : ByteMask) (data : Block) : JEntry :=
  { e with mask := e.mask ||| mask, data := overlay mask data e.data, redirty := e.redirty || decide (e.st = .issued) }

/-- R34: a new entry joins the tail in state HELD; the watermark rule of R41 disarms the flag. -/
def Jrn.allocate (j : Jrn) (e : JEntry) : Jrn :=
  { j with
    entries := j.entries ++ [e]
    armed := j.armed && !decide (j.hwm.toNat ≤ j.occupancy + 1) }

/-- R41: whether the next allocation raises JOURNAL_HIGH. -/
def Jrn.raisesHigh (j : Jrn) : Bool := j.armed && decide (j.hwm.toNat ≤ j.occupancy + 1)

/-- R41: after a removal, and at an applied write to JRN_LWM, the flag becomes armed at or below the low watermark. -/
def Jrn.rearm (j : Jrn) : Jrn := { j with armed := j.armed || decide (j.occupancy ≤ j.lwm.toNat) }

/-- R51, R53: an entry is removed, and the watermark rule applied. -/
def Jrn.remove (j : Jrn) (b : Addr) : Jrn :=
  Jrn.rearm { j with entries := j.entries.filter fun e => decide (e.block ≠ b) }

/-- R32: at the end of capture or a break every HELD entry becomes PENDING. -/
def Jrn.release (j : Jrn) : Jrn :=
  { j with entries := j.entries.map fun e => if e.st = .held then { e with st := .pending } else e }

/-- R50: the entry is issued. -/
def JEntry.issue (e : JEntry) : JEntry := { e with st := .issued }

/-- R51: a drain write completed OK with re-dirty set. -/
def JEntry.again (e : JEntry) : JEntry := { e with st := .pending, redirty := false, retry := 0 }

/-- R52: a drain write completed ERROR with retry count 0 or 1. -/
def JEntry.failed (e : JEntry) : JEntry := { e with st := .pending, redirty := false, retry := e.retry + 1 }

/-- The block of a live-queue entry (R130). -/
def LiveEntry.block : LiveEntry → Addr
  | .read b _ => b
  | .write b _ _ _ => b

/-- R49: a request for the block waits in the live queue. -/
def heldBack (live : List LiveEntry) (b : Addr) : Bool := live.any fun q => decide (q.block = b)

/-- R48: an entry eligible for issue. -/
def JEntry.eligible (live : List LiveEntry) (e : JEntry) : Bool := decide (e.st = .pending) && !heldBack live e.block

/-- R48: the eligible entry that stands oldest in the allocation order. -/
def Jrn.oldestEligible (j : Jrn) (live : List LiveEntry) : Option JEntry := j.entries.find? (JEntry.eligible live)

/-- R54: a loss overwrites the record and raises its count up to 255. -/
def DrainFault.record (f : DrainFault) (e : JEntry) : DrainFault :=
  { block := e.block, window := e.window, epoch := e.epoch, count := min (f.count + 1) 255 }

/-- R40: the condition on the watermarks. -/
def watermarksOk (low high : Word16) : Bool :=
  decide (1 ≤ low.toNat) && decide (low.toNat < high.toNat) && decide (high.toNat ≤ Config.journalCapacity)

end Sys2Proof.Machine
end

