-- ==== Sys2Proof/Machine/Windows.lean ====
section
/-! DEFINITION. The window table, classification and the granule maps (03, R58 to R70). -/

namespace Sys2Proof.Machine

/-- R58: a window that is not OFF. -/
def Window.enabled (w : Window) : Bool := decide (w.kind ≠ .off)

/-- The byte after the window's last: base plus 4096 times size (R58). -/
def Window.endByte (w : Window) : Nat := w.base.toNat + 4096 * w.size

/-- The window is enabled and its range contains the address (R65). -/
def Window.contains (w : Window) (a : Addr) : Bool :=
  w.enabled && decide (w.base.toNat ≤ a.toNat) && decide (a.toNat < w.endByte)

/-- The first window from index `i` on whose range contains the address, with its index. -/
def findWindowFrom (i : Nat) (a : Addr) : List Window → Option (Nat × Window)
  | [] => none
  | w :: ws => if w.contains a then some (i, w) else findWindowFrom (i + 1) a ws

/-- R65: the enabled window whose range contains the block. -/
def findWindow (table : List Window) (a : Addr) : Option (Nat × Window) := findWindowFrom 0 a table

/-- The IMAGE window whose range contains the block (R66). -/
def imageWindow (table : List Window) (a : Addr) : Option (Nat × Window) :=
  match findWindow table a with
  | some (i, w) => if w.kind = .image then some (i, w) else none
  | none => none

/-- R59: the map position of an address of the window. -/
def Window.position (w : Window) (a : Addr) : Nat := w.mapOffset + (a.toNat - w.base.toNat) / 4096

/-- R59: each window's map offset is the sum of the sizes of the enabled windows below it, from `sum` on. -/
def assignOffsets (sum : Nat) : List Window → List Window
  | [] => []
  | w :: ws => { w with mapOffset := sum } :: assignOffsets (sum + if w.enabled then w.size else 0) ws

/-- R59: the table with all map offsets recomputed. -/
def recomputeOffsets (table : List Window) : List Window := assignOffsets 0 table

/-- Two windows share no byte, or one is OFF (R62). -/
def Window.disjoint (v w : Window) : Bool :=
  !v.enabled || !w.enabled || decide (v.endByte ≤ w.base.toNat) || decide (w.endByte ≤ v.base.toNat)

/-- No two windows of the table share a byte. -/
def disjointTable : List Window → Bool
  | [] => true
  | w :: ws => ws.all w.disjoint && disjointTable ws

/-- R62: the sizes of all IMAGE windows. -/
def imageSize (table : List Window) : Nat := ((table.filter fun w => decide (w.kind = .image)).map Window.size).sum

/-- R62: the conditions on the whole resulting table, map offsets assigned. -/
def tableOk (table : List Window) : Bool :=
  disjointTable table && decide (imageSize table ≤ Config.mapPositions) &&
    table.all fun w => decide (w.kind ≠ .image) || decide (w.mapOffset + w.size ≤ Config.mapPositions)

/-- R62: the conditions on the staged base and size of an enabled window. -/
def Window.placeOk (w : Window) : Bool :=
  decide (w.base.toNat % 4096 = 0) && decide (1 ≤ w.size) && decide (w.size ≤ 16384) && decide (w.endByte ≤ 2 ^ 40)

/-- R60, R63: the descriptor that the staging registers hold; `none` for a kind field of 3. -/
def Win.staged (v : Win) : Option Window :=
  let base : Addr := v.stgBase.setWidth 40 <<< 8
  match v.stgKind.toNat with
  | 0 => some Window.off
  | 1 => some { kind := .image, base := base, size := v.stgSize.toNat, fill := 0, mapOffset := 0 }
  | 2 => some { kind := .fill, base := base, size := v.stgSize.toNat, fill := v.stgFill, mapOffset := 0 }
  | _ => none

/-- R61, R62, R63: the table after a WINDOW_WRITE of the staged descriptor at index `i`, `none` where a check of R62 fails. -/
def Win.replaced (v : Win) (i : Nat) : Option (List Window) :=
  match v.staged with
  | none => none
  | some w =>
    let table := recomputeOffsets (v.table.set i w)
    if (!w.enabled || w.placeOk) && tableOk table then some table else none

/-- The code of a window's kind (10.6). -/
def WinKind.code : WinKind → Nat
  | .off => 0
  | .image => 1
  | .fill => 2

/-- R64: a descriptor copied into the staging registers. -/
def Win.load (v : Win) (w : Window) : Win :=
  { v with
    stgBase := (w.base >>> 8).setWidth 32
    stgSize := BitVec.ofNat 16 w.size
    stgKind := BitVec.ofNat 2 w.kind.code
    stgFill := w.fill
    stgMapoff := BitVec.ofNat 32 w.mapOffset }

/-- A position joins an ascending list of marks (R67). -/
def insertMark (p : Nat) : List Nat → List Nat
  | [] => [p]
  | q :: qs => if p < q then p :: q :: qs else if p = q then q :: qs else q :: insertMark p qs

/-- R70: the union of two maps. -/
def unionMarks (ps qs : List Nat) : List Nat := ps.foldr insertMark qs

/-- R68: a write taken to an IMAGE window marks its granule in the collecting map. -/
def Maps.mark (m : Maps) (table : List Window) (a : Addr) : Maps :=
  match imageWindow table a with
  | some (_, w) => { m with coll := insertMark (w.position a) m.coll }
  | none => m

/-- R69: the swap of a freeze point. -/
def Maps.swap (m : Maps) : Maps := { coll := [], img := m.coll }

/-- R70: the OR-back of a break. -/
def Maps.orBack (m : Maps) : Maps := { coll := unionMarks m.img m.coll, img := [] }

/-- R70: the image map is cleared at a commit. -/
def Maps.clearImage (m : Maps) : Maps := { m with img := [] }

end Sys2Proof.Machine
end

