-- ==== Sys2Proof/Machine/Ops.lean ====
section
/-! DEFINITION. The operations shared by the blocks: what the active epoch is, and how a request is taken from its lane
(06, R117, R121 to R131). A block has no exception entry; its alerts and counts are in Flags.lean. -/

namespace Sys2Proof.Machine

/-! ### The active epoch (R2, R26) -/

/-- R2: an epoch is active while it is CAPTURING or SENDING. -/
def EpochState.active : EpochState → Bool
  | .capturing | .sending => true
  | .committed | .broken => false

/-- The newest record is active (R2, R26). -/
def Frz.active (z : Frz) : Bool :=
  match z.history with
  | r :: _ => r.state.active
  | [] => false

/-- The current epoch is CAPTURING. -/
def Frz.capturing (z : Frz) : Bool :=
  match z.history with
  | r :: _ => decide (r.state = .capturing)
  | [] => false

/-- The number of the newest record; 0 stands for no epoch (R5). -/
def Frz.epoch (z : Frz) : Word16 :=
  match z.history with
  | r :: _ => r.number
  | [] => 0

/-- A change of the newest record (R25). -/
def Frz.update (z : Frz) (f : EpochRecord → EpochRecord) : Frz :=
  { z with
    history := match z.history with
      | r :: rs => f r :: rs
      | [] => [] }

/-- R4: the three conditions under which a freeze can take effect. -/
def State.canFreeze (s : State) : Bool := decide (s.frz.st = .idle) && !s.frz.active && s.lnk.up

/-! ### Lanes, credits and lists -/

/-- R121: a record that is not silent holds its pair. -/
def Sp.pairHeld (p : Sp) (initiator : BitVec 4) (tag : BitVec 6) : Bool :=
  p.reads.any (fun r => !r.silent && decide (r.initiator = initiator) && decide (r.tag = tag)) ||
    p.writes.any (fun r => !r.silent && decide (r.initiator = initiator) && decide (r.tag = tag))

/-- The number of claims, 0 or 1 (R126, R127). -/
def Sp.claims (p : Sp) : Nat := p.writes.countP WriteRec.claimed

/-- R130: entries and claims of the live queue. -/
def Sp.liveCount (p : Sp) : Nat := p.live.length + p.claims

/-- R124: an outstanding read record and a live-queue slot are free. -/
def Sp.readRoom (p : Sp) : Bool :=
  decide (p.reads.length < Config.readRecords) && decide (p.liveCount < Config.liveSlots)

/-- R125: an outstanding write record and a live-queue slot are free. -/
def Sp.writeRoom (p : Sp) : Bool :=
  decide (p.writes.length < Config.writeRecords) && decide (p.liveCount < Config.liveSlots)

/-- The lowest record number not in use (log 8). -/
def freshId (ids : List Nat) : Nat := ((List.range (ids.length + 1)).find? fun n => !ids.contains n).getD ids.length

/-- R117: the head leaves the read lane, and its credit is returned or, while `withhold`, withheld. -/
def Sp.popRead (p : Sp) (withhold : Bool) : Sp :=
  { p with
    rlane := p.rlane.tail
    rcred := p.rcred + if withhold then 0 else 1
    rheld := p.rheld + if withhold then 1 else 0 }

/-- R117: the same for the write lane. -/
def Sp.popWrite (p : Sp) (withhold : Bool) : Sp :=
  { p with
    wlane := p.wlane.tail
    wcred := p.wcred + if withhold then 0 else 1
    wheld := p.wheld + if withhold then 1 else 0 }

/-- The credit-return indication of a take; none while credits are withheld (R117). -/
def creditOutput (withhold : Bool) (l : Lane) : List Output := if withhold then [] else [.creditReturn l]

/-- A READ leaves the head of its lane and is answered at its take, or not (R117, R122; the response first, log 22). -/
def State.popRead (s : State) (response : List Output) : State :=
  { s with sp := s.sp.popRead s.resetting, out := s.out ++ response ++ creditOutput s.resetting .read }

/-- A WRITE leaves the head of its lane and is answered at its take, or not. -/
def State.popWrite (s : State) (response : List Output) : State :=
  { s with sp := s.sp.popWrite s.resetting, out := s.out ++ response ++ creditOutput s.resetting .write }

/-! ### Takes of a WRITE -/

/-- R126: the claim of a stalled write is released. -/
def Sp.releaseClaims (p : Sp) : Sp := { p with writes := p.writes.filter fun r => !r.claimed }

/-- R126, R127: the stalled write claims an outstanding write record; its live-queue slot is counted by `liveCount`. -/
def Sp.claim (p : Sp) (w : WriteReq) : Sp :=
  { p with
    writes := p.writes ++
      [{ id := freshId (p.writes.map WriteRec.id), initiator := w.initiator, tag := w.tag, silent := false, claimed := true }] }

/-- The record number a straight write takes: that of its claim, or a fresh one. -/
def Sp.writeId (p : Sp) : Nat :=
  match p.writes.find? WriteRec.claimed with
  | some r => r.id
  | none => freshId (p.writes.map WriteRec.id)

/-- R125, R129, R130: a write taken straight: its record (the claimed one becomes it) and its live-queue entry. -/
def Sp.straight (p : Sp) (w : WriteReq) : Sp :=
  { p with
    writes :=
      if p.writes.any WriteRec.claimed then p.writes.map fun r => { r with claimed := false }
      else p.writes ++ [{ id := p.writeId, initiator := w.initiator, tag := w.tag, silent := false, claimed := false }]
    live := p.live ++ [.write w.addr w.mask w.block32 p.writeId] }

/-- A stall of the write lane ends; the stall timer stops (R14). -/
def Frz.endStall (z : Frz) : Frz := { z with stall := none }

/-- R33 last row, R68, R125: the head write is taken straight; a stall it was in ends. -/
def State.takeStraight (s : State) (w : WriteReq) : State :=
  { s with
    frz := s.frz.endStall
    maps := s.maps.mark s.win.table w.addr
    sp := (s.sp.straight w).popWrite s.resetting
    out := s.out ++ creditOutput s.resetting .write }

/-- R33 first row, R35, R68: the head write is merged into its block's entry and answered OK. -/
def State.takeMerge (s : State) (w : WriteReq) : State :=
  { s with
    frz := s.frz.endStall
    jrn := s.jrn.update w.addr fun e => e.merge w.mask w.block32
    maps := s.maps.mark s.win.table w.addr
    sp := s.sp.releaseClaims.popWrite s.resetting
    stats := s.stats.count .jrnMerges
    out := s.out ++ [.writeDone w.initiator w.tag .ok] ++ creditOutput s.resetting .write }

/-- R30: the entry a write allocates. -/
def newEntry (w : WriteReq) (window : Nat) (epoch : Word16) : JEntry :=
  { block := w.addr, window := window, epoch := epoch, mask := w.mask, data := w.block32, st := .held, redirty := false,
    retry := 0 }

/-- R33 second row, R34, R41, R68: the head write is held in a new entry and answered OK. -/
def State.takeAllocate (s : State) (w : WriteReq) (window : Nat) : State :=
  { s with
    frz := s.frz.endStall
    jrn := s.jrn.allocate (newEntry w window s.frz.epoch)
    maps := s.maps.mark s.win.table w.addr
    sp := s.sp.releaseClaims.popWrite s.resetting
    alert := if s.jrn.raisesHigh then s.alert.raise .journalHigh else s.alert
    stats := (s.stats.count .jrnAllocs).offerPeak (s.jrn.occupancy + 1)
    out := s.out ++ [.writeDone w.initiator w.tag .ok] ++ creditOutput s.resetting .write }

/-- How R33 handles a write. -/
inductive WriteHandling where
  | merge
  | allocate (window : Nat)
  | exhaustion
  | straight
  deriving DecidableEq, Repr

/-- R33, R66: the handling of a write by window, entry, freeze state and occupancy. -/
def State.handling (s : State) (w : WriteReq) : WriteHandling :=
  match imageWindow s.win.table w.addr with
  | none => .straight
  | some (i, _) =>
    if (s.jrn.find w.addr).isSome then .merge
    else if s.frz.st = .frozen then
      if s.jrn.occupancy < Config.journalCapacity then .allocate i else .exhaustion
    else .straight

/-- The head write is taken as a plain write at the end of a marker stall (R12, R126). -/
def State.takePlain (s : State) (w : WriteReq) : State :=
  match s.handling w with
  | .merge => s.takeMerge w
  | .allocate i => s.takeAllocate w i
  | .exhaustion => s.takeStraight w
  | .straight => s.takeStraight w

/-- R11, R14, R44, R126, R127: the head write stalls, claims its resources, and WRITE_STALL is raised and counted. -/
def State.beginStall (s : State) (k : StallKind) (w : WriteReq) : State :=
  { s with
    frz := { s.frz with stall := some k, stallTimer := 0 }
    sp := s.sp.claim w
    alert := s.alert.raise .writeStall
    stats := s.stats.count .writeStalls }

/-- A stalled write is taken by `take` and the stall ends; an empty lane, which no stall has, is left as it is (log 23). -/
def State.endStallWith (s : State) (take : State → WriteReq → State) : State :=
  match s.sp.wlane with
  | w :: _ => take s w
  | [] => { s with frz := s.frz.endStall, sp := s.sp.releaseClaims }

end Sys2Proof.Machine
end

