-- ==== Sys2Proof/Machine/Capture.lean ====
section
/-! DEFINITION. The image copier (04): the frame plan, the frames that need no memory read, the block reads and what their
completions do to the copier and its slots. -/

namespace Sys2Proof.Machine

/-! ### The frame plan (R75) -/

/-- R75: the granules of an IMAGE window an epoch sends, ascending. -/
def selectedGranules (kind : Kind) (img : List Nat) (w : Window) : List Nat :=
  match kind with
  | .full => List.range w.size
  | .delta => (List.range w.size).filter fun g => img.contains (w.mapOffset + g)

/-- R75: the 16 DATA frames of a granule. -/
def granuleFrames (window granule : Nat) : List PlanFrame := (List.range 16).map fun c => .data window granule c

/-- R75: the frames of the windows from index `i` on. -/
def windowFrames (kind : Kind) (img : List Nat) (i : Nat) : List Window → List PlanFrame
  | [] => []
  | w :: ws =>
    (match w.kind with
      | .off => []
      | .fill => if kind = .full then [.fill i] else []
      | .image => (selectedGranules kind img w).flatMap (granuleFrames i)) ++ windowFrames kind img (i + 1) ws

/-- R75: OPEN, the windows in ascending index, END. -/
def framePlan (kind : Kind) (img : List Nat) (table : List Window) : List PlanFrame :=
  .opening :: (windowFrames kind img 0 table ++ [.closing])

/-- R75, R76: the granule count G. -/
def granuleCount (kind : Kind) (img : List Nat) (table : List Window) : Nat :=
  ((table.filter fun w => decide (w.kind = .image)).map fun w => (selectedGranules kind img w).length).sum

/-- R76: the descriptor list of OPEN, from index `i` on. -/
def descriptorsFrom (i : Nat) : List Window → List Descriptor
  | [] => []
  | w :: ws =>
    (if w.enabled then [{ window := i, kind := w.kind, base := w.base, size := w.size, fill := w.fill }] else []) ++
      descriptorsFrom (i + 1) ws

/-- A DATA frame of the plan. -/
def PlanFrame.isData : PlanFrame → Bool
  | .data _ _ _ => true
  | _ => false

/-- END's sequence number: the last of the plan (R75). -/
def Cap.endSeq (c : Cap) : Nat := c.plan.length - 1

/-- The frame of the plan that takes the next slot. -/
def Cap.next (c : Cap) : Option PlanFrame := c.plan[c.pos]?

/-- A window of the table by index. -/
def windowAt (table : List Window) (i : Nat) : Window := table.getD i Window.off

/-! ### Slots (R94) -/

/-- R94: a slot is FREE. -/
def Lnk.slotFree (l : Lnk) : Bool := decide (l.slots.length < Config.slotCount)

/-- A slot goes from FREE to READY with a frame that needs no read (R76, R77, R84). -/
def Lnk.place (l : Lnk) (seq : Nat) (f : Frame) : Lnk :=
  { l with slots := l.slots ++ [{ st := .ready, seq := seq, frame := f, issued := 0 }] }

/-- The first slot of a list that `p` selects, changed in its place. -/
def updateFirst (p : Slot → Bool) (f : Slot → Slot) : List Slot → List Slot
  | [] => []
  | q :: qs => if p q then f q :: qs else q :: updateFirst p f qs

/-! ### The start of an epoch (R76, R79, R88, R93) -/

/-- R74, R79, R85, R88: the copier at a freeze point, OPEN placed as sequence 0. -/
def Cap.begin (c : Cap) (plan : List PlanFrame) (granules fence : Nat) : Cap :=
  { c with st := .copying, plan := plan, pos := 1, fence := fence, digest := crcInit, dataBuilt := 0, fillBuilt := 0,
           remain := granules }

/-- R76, R93: the link controller at a freeze point, OPEN in a slot. -/
def Lnk.begin (l : Lnk) (epoch : Word16) (opening : Frame) : Lnk :=
  { l with ctl := .sending, slots := [{ st := .ready, seq := 0, frame := opening, issued := 0 }], ackPt := 0, sentCnt := 0,
           txPt := 0, curEpoch := epoch, retry := 0, ackTimer := 0, contPause := 0 }

/-! ### FILL and END (R77, R84) -/

/-- R77: the FILL frame of window `i` at the copier's position. -/
def State.fillFrame (s : State) (i : Nat) : Frame :=
  .fill s.lnk.curEpoch s.cap.pos i (windowAt s.win.table i).fill (windowAt s.win.table i).size

/-- R77: the FILL frame takes a slot, and the count of FILL frames built rises by one. -/
def State.placeFill (s : State) (i : Nat) : State :=
  { s with
    cap := { s.cap with pos := s.cap.pos + 1, fillBuilt := s.cap.fillBuilt + 1 }
    lnk := s.lnk.place s.cap.pos (s.fillFrame i) }

/-- R77, R79: FILL frames that come next in the plan are placed while slots are FREE, at most `k` of them. -/
def State.placeFills : Nat → State → State
  | 0, s => s
  | k + 1, s =>
    match s.cap.next with
    | some (.fill i) => if s.lnk.slotFree then State.placeFills k (s.placeFill i) else s
    | _ => s

/-- R84: END with the counts and the digest. -/
def State.endFrame (s : State) : Frame :=
  .closing s.lnk.curEpoch s.cap.pos s.cap.dataBuilt s.cap.fillBuilt (crcFinal s.cap.digest)

/-- R84: END takes a slot, the digest is written to the record, and the copier becomes IDLE. -/
def State.placeEnd (s : State) : State :=
  { s with
    cap := { s.cap with st := .idle, pos := s.cap.pos + 1 }
    lnk := s.lnk.place s.cap.pos s.endFrame
    frz := s.frz.update fun r => { r with digest := some (crcFinal s.cap.digest) } }

/-- PLACE_FILL_FRAME (R77, R80, R84): the plan has reached a FILL frame and a slot is FREE. That a FILL frame behind the last IMAGE
window is placed also while the copier is still COPYING is the model's reading of R77 (log 32). -/
def execPlaceFillFrame (s : State) : Host.Outcome State Fault Refusal :=
  .next <|
    match s.cap.next with
    | some (.fill i) => if s.cap.st ≠ .idle ∧ s.lnk.slotFree then s.placeFill i else s
    | _ => s

/-- BUILD_END (R84): CLOSING, END next in the plan, a slot FREE. -/
def execBuildEnd (s : State) : Host.Outcome State Fault Refusal :=
  .next <|
    match s.cap.next with
    | some .closing => if s.cap.st = .closing ∧ s.lnk.slotFree then s.placeEnd else s
    | _ => s

/-! ### Reads (R78, R80) -/

/-- A DATA frame whose slot is FILLING has reads not yet issued (R80). -/
def Slot.unissued (q : Slot) : Bool := decide (q.st = .filling) && decide (q.issued < 8)

/-- R80: the two cases in which the copier has a read to issue. -/
def State.copierHasRead (s : State) : Bool :=
  decide (s.cap.st = .copying) && decide (s.cap.fence = 0) &&
    (s.lnk.slots.any Slot.unissued ||
      ((match s.cap.next with | some p => p.isData | none => false) && s.lnk.slotFree))

/-- R78: the block of read `k` of a DATA frame. -/
def readBlock (table : List Window) (window granule chunk k : Nat) : Addr :=
  (windowAt table window).base + BitVec.ofNat 40 (4096 * granule + 256 * chunk + 32 * k)

/-- The block of the next read of a FILLING slot. -/
def Slot.nextBlock (table : List Window) (q : Slot) : Addr :=
  match q.frame with
  | .data _ _ w c g _ => readBlock table w g c q.issued
  | _ => 0

/-- R80, R94: the slot that the next DATA frame of the plan takes, its first read issued. -/
def State.newDataSlot (s : State) (w g c : Nat) : Slot :=
  { st := .filling, seq := s.cap.pos, frame := .data s.lnk.curEpoch s.cap.pos w c g [], issued := 1 }

/-- R80: the read a grant to the copier issues, as the state after it and the block read. -/
def State.copierIssue (s : State) : State × Addr :=
  match s.lnk.slots.find? Slot.unissued with
  | some q =>
    ({ s with
       cap := { s.cap with reads := s.cap.reads + 1 }
       lnk := { s.lnk with slots := updateFirst Slot.unissued (fun q => { q with issued := q.issued + 1 }) s.lnk.slots } },
     q.nextBlock s.win.table)
  | none =>
    match s.cap.next with
    | some (.data w g c) =>
      ({ s with
         cap := { s.cap with reads := s.cap.reads + 1, pos := s.cap.pos + 1 }
         lnk := { s.lnk with slots := s.lnk.slots ++ [s.newDataSlot w g c] } },
       readBlock s.win.table w g c 0)
    | _ => (s, 0)

/-! ### Completions of reads (R81, R85) -/

/-- The payload of a DATA frame with further bytes. -/
def Frame.extend (f : Frame) (bs : List Byte) : Frame :=
  match f with
  | .data e n w c g p => .data e n w c g (p ++ bs)
  | f => f

/-- The payload's length. -/
def Frame.payloadLength : Frame → Nat
  | .data _ _ _ _ _ p => p.length
  | _ => 0

/-- The frame is for chunk 15 of its granule. -/
def Frame.lastChunk : Frame → Bool
  | .data _ _ _ c _ _ => decide (c = 15)
  | _ => false

/-- A slot is FILLING. -/
def Slot.isFilling (q : Slot) : Bool := decide (q.st = .filling)

/-- R81: a block's bytes join the payload; at 256 bytes the slot becomes READY. -/
def Slot.receive (q : Slot) (b : Block) : Slot :=
  let f := q.frame.extend b.toList
  { q with frame := f, st := if f.payloadLength = 256 then .ready else q.st }

/-- R81, R85: a read of the active epoch completed OK, for the oldest FILLING slot `q`. -/
def State.storeRead (s : State) (q : Slot) (b : Block) : State :=
  let done := decide ((q.receive b).st = .ready)
  let captured := done && q.frame.lastChunk
  { s with
    cap := { s.cap with
      digest := crcUpdate s.cap.digest b.toList
      dataBuilt := s.cap.dataBuilt + if done then 1 else 0
      remain := s.cap.remain - if captured then 1 else 0 }
    lnk := { s.lnk with slots := updateFirst Slot.isFilling (fun q => q.receive b) s.lnk.slots }
    frz := s.frz.update fun r => { r with granules := r.granules + if captured then 1 else 0 } }

/-- R83: the last DATA frame of the plan is complete: none is left to begin and none is FILLING. -/
def State.imageRead (s : State) : Bool :=
  !(s.cap.plan.drop s.cap.pos).any PlanFrame.isData && !s.lnk.slots.any Slot.isFilling

/-- R86: a break stops the copier: the plan and the fence are abandoned, and the reads outstanding become stale. An IDLE copier
is left as it is, a fence count still above 0 included: the model's reading of R79 beside R86 (log 30). -/
def Cap.stop (c : Cap) : Cap :=
  if c.st = .idle then c else { c with st := .idle, plan := [], pos := 0, fence := 0, stale := c.reads }

end Sys2Proof.Machine
end

