-- ==== Sys2Proof/Machine/Freeze.lean ====
section
/-! DEFINITION. The freeze controller (01): the freeze point, capture complete, the commit, breaks, the pending-freeze slot
and its evaluation, and the ends of stalls. -/

namespace Sys2Proof.Machine

/-! ### Command completion (08, R170) -/

/-- R170: the busy flag clears, the result is written, and CMD_DONE is raised. -/
def State.completeCommand (s : State) (r : CmdResult) : State :=
  { s with mgmt := { s.mgmt with busy := false, result := r }, alert := s.alert.raise .cmdDone }

/-! ### Leaving FROZEN (R16, R21) -/

/-- R15, R25: the epoch timer's value, saturated, as the freeze duration. -/
def Frz.durationNow (z : Frz) : Nat := min z.epochTimer 4294967295

/-- R1: FROZEN is left for DRAINING, every HELD entry becoming PENDING, or for IDLE with an empty journal. -/
def State.leaveFrozen (s : State) : State :=
  { s with
    frz := { s.frz with st := if s.jrn.entries.isEmpty then .idle else .draining }
    jrn := s.jrn.release }

/-- R16, R21, R45: an exhaustion stall ends, and the stalled write is taken straight. -/
def State.endExhaustion (s : State) : State :=
  if s.frz.stall = some .exhaustion then s.endStallWith State.takeStraight else s

/-- R16, R83, R92: capture complete. -/
def State.captureComplete (s : State) : State :=
  State.endExhaustion <|
    State.raise
      (State.leaveFrozen
        { s with
          frz := s.frz.update fun r => { r with state := .sending, duration := s.frz.durationNow }
          cap := { s.cap with st := .closing }
          lnk := { s.lnk with ctl := .tail } })
      .captureDone

/-! ### The freeze point (R5, R6) -/

/-- R5: the number after an epoch number; 65535 is followed by 1. -/
def nextNumber (n : Word16) : Word16 := if n = 65535#16 then 1 else n + 1

/-- R6 step 2: the kind performed. -/
def kindPerformed (requested : Kind) (baseline : Bool) : Kind :=
  if requested = .delta ∧ baseline = false then .full else requested

/-- R6 step 5: the record of a new epoch. -/
def newRecord (number : Word16) (src : Source) (requested performed : Kind) : EpochRecord :=
  { number := number, source := src, kindRequested := requested, kindPerformed := performed, state := .capturing,
    cause := none, granules := 0, framesSent := 0, framesResent := 0, duration := 0, digest := none }

/-- R6 steps 1, 2, 4, 5, 6 at the freeze controller. -/
def Frz.beginEpoch (z : Frz) (src : Source) (requested : Kind) : Frz :=
  { z with
    st := .frozen
    nextEpoch := nextNumber z.nextEpoch
    history :=
      (newRecord z.nextEpoch src requested (kindPerformed requested z.baseline) :: z.history).take Config.historyDepth
    epochTimer := 0 }

/-- R6 steps 1 to 8, the leading FILL frames of R77 and R79 included. -/
def State.beginEpoch (s : State) (src : Source) (requested : Kind) : State :=
  let performed := kindPerformed requested s.frz.baseline
  let maps := s.maps.swap
  let g := granuleCount performed maps.img s.win.table
  State.raise
    (State.placeFills Config.slotCount
      { s with
        frz := s.frz.beginEpoch src requested
        maps := maps
        cap := s.cap.begin (framePlan performed maps.img s.win.table) g s.sp.live.length
        lnk := s.lnk.begin s.frz.nextEpoch (.opening s.frz.nextEpoch performed (descriptorsFrom 0 s.win.table) g) })
    .epochBegun

/-- R6, R83: a freeze takes effect; with no DATA frame in the plan capture is complete within the same event. -/
def State.freezePoint (s : State) (src : Source) (requested : Kind) : State :=
  let t := s.beginEpoch src requested
  if t.cap.plan.any PlanFrame.isData then t else t.captureComplete

/-! ### The pending-freeze slot (R3, R4) -/

/-- The pending-freeze slot empties. -/
def State.emptySlot (s : State) : State := { s with frz := { s.frz with slot := none } }

/-- R4: a waiting request takes effect and its source completes; a MARKER request's write is taken first (R12, R126). -/
def State.takeEffect (s : State) (q : FreezeReq) : State :=
  match q.source with
  | .mgmt => (s.emptySlot.freezePoint .mgmt q.kind).completeCommand .ok
  | .line => s.emptySlot.freezePoint .line q.kind
  | .marker => (s.emptySlot.endStallWith State.takeStraight).freezePoint .marker q.kind

/-- R4: the evaluation of a request waiting in the slot. -/
def State.evaluate (s : State) : State :=
  match s.frz.slot with
  | some q => if s.canFreeze then s.takeEffect q else s
  | none => s

/-- R12, R23, R28: a request in the slot is cancelled without an alert; a MARKER request's write is taken as a plain write.
A MGMT request's command is completed by the caller. -/
def State.cancelSlot (s : State) : State :=
  match s.frz.slot with
  | none => s
  | some q =>
    match q.source with
    | .marker => s.emptySlot.endStallWith State.takePlain
    | .mgmt | .line => s.emptySlot

/-! ### Breaks (R19 to R22, R86, R112) -/

/-- R112: the link controller at a break. -/
def Lnk.breakEpoch (l : Lnk) (epoch : Word16) (cause : BreakCause) : Lnk :=
  { l with
    ctl := .idle
    slots := []
    retry := 0
    ackTimer := 0
    contPause := 0
    prevEpoch := epoch
    abandon := if l.up then some (epoch, cause) else l.abandon }

/-- R20: the effects of every break of an active epoch. -/
def State.breakCore (s : State) (cause : BreakCause) : State :=
  { s with
    frz := s.frz.update fun r =>
      { r with
        state := .broken
        cause := some cause
        duration := if s.frz.capturing then s.frz.durationNow else r.duration }
    maps := s.maps.orBack
    cap := s.cap.stop
    lnk := s.lnk.breakEpoch s.frz.epoch cause
    alert := s.alert.raise .epochBroken
    stats := s.stats.count .epochsBroken }

/-- R20, R21, R22: a break of the active epoch with all its effects, before the evaluation of the slot. -/
def State.breakNow (s : State) (cause : BreakCause) : State :=
  if s.frz.capturing then (s.breakCore cause).leaveFrozen.endExhaustion else s.breakCore cause

/-- R19: a break report: it breaks an active epoch and then has the slot evaluated; with none active it has no effect. -/
def State.breakEpoch (s : State) (cause : BreakCause) : State :=
  if s.frz.active then (s.breakNow cause).evaluate else s

/-! ### Commit (R18) -/

/-- R18: the commit of the active epoch. -/
def State.commitEpoch (s : State) : State :=
  State.evaluate
    { s with
      frz := { s.frz.update (fun r => { r with state := .committed }) with
        baseline := s.frz.baseline ||
          (match s.frz.history with | r :: _ => decide (r.kindPerformed = .full) | [] => false) }
      maps := s.maps.clearImage
      alert := s.alert.raise .epochCommitted
      stats := s.stats.count .epochsCommitted }

/-! ### The end of the drain (R17) -/

/-- R17: with the journal empty in DRAINING the freeze state becomes IDLE, DRAIN_DONE is raised, and the slot evaluated. -/
def State.endDrain (s : State) : State :=
  if s.frz.st = .draining ∧ s.jrn.entries.isEmpty then
    (State.raise { s with frz := { s.frz with st := .idle } } .drainDone).evaluate
  else s

/-! ### Stall expiry (R12, R14) -/

/-- R14: the stall timer stands at or above a non-zero limit during a stall. -/
def Frz.stallDue (z : Frz) : Bool :=
  z.stall.isSome && decide (z.stallLimit ≠ 0) && decide (z.stallLimit.toNat ≤ z.stallTimer)

/-- R12, R14: the expiry of the stall timer. -/
def State.stallExpire (s : State) : State :=
  match s.frz.stall with
  | some .marker => (s.emptySlot.endStallWith State.takePlain).markerRefused
  | some .exhaustion => s.breakEpoch .stallLimit
  | none => s

/-- R15: the epoch timer stands at or above 1000 times a non-zero limit while CAPTURING. -/
def Frz.epochDue (z : Frz) : Bool :=
  z.capturing && decide (z.epochLimit ≠ 0) && decide (Config.ticksPerMs * z.epochLimit.toNat ≤ z.epochTimer)

/-- STALL_TIMER_EXPIRY (R14). -/
def execStallTimerExpiry (s : State) : Host.Outcome State Fault Refusal :=
  .next (if s.frz.stallDue then s.stallExpire else s)

/-- EPOCH_TIMER_EXPIRY (R15). -/
def execEpochTimerExpiry (s : State) : Host.Outcome State Fault Refusal :=
  .next (if s.frz.epochDue then s.breakEpoch .epochLimit else s)

/-! ### FREEZE_REQ (R10) -/

/-- R10: an edge of FREEZE_REQ; during a controlled reset it is dropped (R28). -/
def State.lineRequest (s : State) : State :=
  if s.resetting then s.freezeRefused
  else if s.canFreeze then s.freezePoint .line s.frz.lineKind
  else if s.frz.st = .frozen ∨ s.frz.slot.isSome then s.freezeRefused
  else { s with frz := { s.frz with slot := some { source := .line, kind := s.frz.lineKind } } }

/-- R10: a sample of FREEZE_REQ; a change from low to high between two samples is one edge. -/
def State.sampleLine (s : State) (high : Bool) : State :=
  let t : State := { s with frz := { s.frz with lineSeenLow := !high } }
  if high && s.frz.lineSeenLow then t.lineRequest else t

/-- FREEZE_REQ_EDGE (R10): a sample that finds the line high; it is an edge if the last sample found it low (log 5). -/
def execFreezeReqEdge (s : State) : Host.Outcome State Fault Refusal := .next (s.sampleLine true)

end Sys2Proof.Machine
end

