-- ==== Sys2Proof/Machine/SystemPort.lean ====
section
/-! DEFINITION. The system port (06): arrivals, the examination and taking of requests, and the S-port reset. -/

namespace Sys2Proof.Machine

/-! ### Arrivals (R117, R118) -/

/-- R118: a credit overrun. -/
def State.overrun (s : State) : State := (s.raise .portProtocol).count .creditOverruns

/-- REQUEST_ARRIVES (R117, R118). -/
def execRequestArrives (r : Request) (s : State) : Host.Outcome State Fault Refusal :=
  .next <|
    match r with
    | .read q =>
      if s.sp.rcred = 0 then s.overrun
      else { s with sp := { s.sp with rlane := s.sp.rlane ++ [q], rcred := s.sp.rcred - 1 } }
    | .write q =>
      if s.sp.wcred = 0 then s.overrun
      else { s with sp := { s.sp with wlane := s.sp.wlane ++ [q], wcred := s.sp.wcred - 1 } }

/-! ### Reads (R37, R38, R119, R121, R124) -/

/-- R37, R66: the positions a read captures: valid in the journal entry of its block and inside its range. -/
def State.captureMask (s : State) (r : ReadReq) : ByteMask :=
  match imageWindow s.win.table r.block with
  | none => 0
  | some _ =>
    match s.jrn.find r.block with
    | some e => e.mask &&& r.range
    | none => 0

/-- R37: the bytes captured. -/
def State.captureData (s : State) (r : ReadReq) : Block :=
  match s.jrn.find r.block with
  | some e => masked (s.captureMask r) e.data
  | none => Vector.replicate 32 0

/-- R128: the optional capture of a record; an empty one is absent. -/
def State.capture (s : State) (r : ReadReq) : Option Capture :=
  if s.captureMask r = 0 then none else some { mask := s.captureMask r, data := s.captureData r }

/-- R38: the capture covers every byte of the range. -/
def State.journalHit (s : State) (r : ReadReq) : Bool := decide (s.captureMask r = r.range)

/-- R128, R130: a read on its way to memory: its record and its live-queue entry. -/
def Sp.addRead (p : Sp) (r : ReadReq) (c : Option Capture) : Sp :=
  let id := freshId (p.reads.map ReadRec.id)
  { p with
    reads := p.reads ++
      [{ id := id, initiator := r.initiator, tag := r.tag, addr := r.addr, len := r.len, silent := false, capture := c }]
    live := p.live ++ [.read r.block id] }

/-- R119: a READ answered FORMAT_ERROR. -/
def State.readFormatError (s : State) (r : ReadReq) : State :=
  (s.count .formatErrors).popRead [.readDone r.initiator r.tag .formatError []]

/-- R121: a READ answered TAG_ERROR. -/
def State.readTagError (s : State) (r : ReadReq) : State :=
  (s.count .tagErrors).popRead [.readDone r.initiator r.tag .tagError []]

/-- R38: a journal hit, answered at once. -/
def State.readHit (s : State) (r : ReadReq) : State :=
  s.popRead [.readDone r.initiator r.tag .ok (blockBytes (s.captureData r) (offsetOf r.addr) r.len.toNat)]

/-- R124: a read taken to memory. -/
def State.readToMemory (s : State) (r : ReadReq) : State :=
  State.popRead { s with sp := s.sp.addRead r (s.capture r) } []

/-- R123, R124: the READ at the head of its lane is examined. -/
def State.examineRead (s : State) (r : ReadReq) : State :=
  if r.formatError then s.readFormatError r
  else if s.sp.pairHeld r.initiator r.tag then s.readTagError r
  else if s.journalHit r then s.readHit r
  else if s.sp.readRoom then s.readToMemory r
  else s

/-- TAKE_READ (R124). -/
def execTakeRead (s : State) : Host.Outcome State Fault Refusal :=
  .next <|
    match s.sp.rlane with
    | r :: _ => s.examineRead r
    | [] => s

/-! ### Writes (R11, R33, R42 to R44, R120, R121, R125 to R127) -/

/-- R120: a WRITE answered FORMAT_ERROR. -/
def State.writeFormatError (s : State) (w : WriteReq) : State :=
  (s.count .formatErrors).popWrite [.writeDone w.initiator w.tag .formatError]

/-- R121: a WRITE answered TAG_ERROR. -/
def State.writeTagError (s : State) (w : WriteReq) : State :=
  (s.count .tagErrors).popWrite [.writeDone w.initiator w.tag .tagError]

/-- R43, R44: a write meets exhaustion. -/
def State.exhaust (s : State) (w : WriteReq) : State :=
  match s.jrn.policy with
  | .break_ => (s.breakEpoch .journalFull).takeStraight w
  | .hold => s.beginStall .exhaustion w

/-- R33, R125: a plain write is handled once its resources are at hand. -/
def State.plainWrite (s : State) (w : WriteReq) : State :=
  match s.handling w with
  | .merge => s.takeMerge w
  | .allocate i => s.takeAllocate w i
  | .exhaustion => if s.sp.writeRoom then s.exhaust w else s
  | .straight => if s.sp.writeRoom then s.takeStraight w else s

/-- R11, R126: a marker write whose two resources are free; during a controlled reset it is refused (R28). -/
def State.markerWrite (s : State) (w : WriteReq) : State :=
  if s.resetting then s.markerRefused.plainWrite w
  else if s.canFreeze then (s.takeStraight w).freezePoint .marker s.frz.markerKind
  else if s.frz.st = .frozen ∨ s.frz.slot.isSome then s.markerRefused.plainWrite w
  else
    State.beginStall { s with frz := { s.frz with slot := some { source := .marker, kind := s.frz.markerKind } } } .marker w

/-- R123, R125, R126: the WRITE at the head of its lane is examined. -/
def State.examineWrite (s : State) (w : WriteReq) : State :=
  if w.formatError then s.writeFormatError w
  else if s.sp.pairHeld w.initiator w.tag then s.writeTagError w
  else if w.marker then (if s.sp.writeRoom then s.markerWrite w else s)
  else s.plainWrite w

/-- TAKE_WRITE (R125): a stalled head is not examined again. -/
def execTakeWrite (s : State) : Host.Outcome State Fault Refusal :=
  .next <|
    match s.sp.wlane with
    | w :: _ => if s.frz.stall.isSome then s else s.examineWrite w
    | [] => s

/-! ### S-port reset (R29, R135, R136) -/

/-- R135, R136, R137: the system port at an S-port reset. -/
def Sp.portReset (p : Sp) (withhold : Bool) : Sp :=
  { p with
    rlane := []
    wlane := []
    rcred := if withhold then 0 else Config.laneDepth
    wcred := if withhold then 0 else Config.laneDepth
    rheld := if withhold then Config.laneDepth else 0
    wheld := if withhold then Config.laneDepth else 0
    reads := p.reads.map fun r => { r with silent := true }
    writes := (p.writes.filter fun r => !r.claimed).map fun r => { r with silent := true } }

/-- R29: a MARKER request in the slot is cancelled, and a stall ends. -/
def Frz.portReset (z : Frz) : Frz :=
  { z with
    slot := match z.slot with
      | some q => if q.source = .marker then none else some q
      | none => none
    stall := none }

/-- SPORT_RESET (R135). -/
def execSportReset (s : State) : Host.Outcome State Fault Refusal :=
  .next
    { s with
      sp := s.sp.portReset s.resetting
      frz := s.frz.portReset
      out := s.out ++
        [if s.resetting then .resetAck 0 0 else .resetAck Config.laneDepth Config.laneDepth] }

end Sys2Proof.Machine
end

