-- ==== Sys2Proof/Machine/Link.lean ====
section
/-! DEFINITION. The replication link controller (05): lock, transmission, inbound frames, pauses, the ack timer and
retransmission rounds. -/

namespace Sys2Proof.Machine

/-! ### Lock (R89 to R91) -/

/-- LOCK_GAINED (R91): in DOWN the link becomes UP, LINK_UP is raised, and the slot is evaluated. -/
def execLockGained (s : State) : Host.Outcome State Fault Refusal :=
  .next <|
    if s.lnk.up then s
    else (State.raise { s with lnk := { s.lnk with up := true } } .linkUp).evaluate

/-- R90: the link controller at a loss of lock. -/
def Lnk.lose (l : Lnk) : Lnk := { l with up := false, tx := none, pauseTimer := 0, contPause := 0, abandon := none }

/-- R90: the output of a frame cut short by a loss of lock or a power-on reset. -/
def Lnk.cutOutput (l : Lnk) : List Output := if l.tx.isSome then [.frameCut] else []

/-- LOSS_OF_LOCK (R90); the cut frame stands in the outputs before what the break puts out (log 22). -/
def execLossOfLock (s : State) : Host.Outcome State Fault Refusal :=
  .next <|
    if s.lnk.up then
      State.breakEpoch
        { s with
          lnk := s.lnk.lose
          alert := s.alert.raise .linkDown
          stats := s.stats.count .lockLosses
          out := s.out ++ s.lnk.cutOutput } .linkLost
    else s

/-! ### Transmission (R96, R97, R113) -/

/-- R96: the link is UP, no pause is in force, and no frame is in transmission. -/
def Lnk.lineReady (l : Lnk) : Bool := l.up && decide (l.pauseTimer = 0) && l.tx.isNone

/-- The frame is END. -/
def Frame.isEnd : Frame → Bool
  | .closing .. => true
  | _ => false

/-- R96: the slot whose frame may start: READY at the transmit point, no ABANDON pending, and for END every other frame
acknowledged. -/
def Lnk.startable (l : Lnk) : Option Slot :=
  if l.lineReady && l.abandon.isNone then
    (l.slots.find? fun q => decide (q.seq = l.txPt)).filter fun q =>
      decide (q.st = .ready) && (!q.frame.isEnd || decide (l.ackPt = q.seq))
  else none

/-- R97: the slot of a sequence number becomes SENT. -/
def Slot.markSent (seq : Nat) (q : Slot) : Slot := if q.seq = seq then { q with st := .sent } else q

/-- R95, R96, R97: the link controller at the start of a sequenced frame. -/
def Lnk.start (l : Lnk) (q : Slot) : Lnk :=
  { l with
    slots := l.slots.map (Slot.markSent q.seq)
    txPt := l.txPt + 1
    sentCnt := if q.seq = l.sentCnt then l.sentCnt + 1 else l.sentCnt
    ctl := if q.frame.isEnd then .awaitCommit else l.ctl
    tx := some q.frame }

/-- R97: a record's count, saturating at 2^32 − 1 (R25). -/
def bump32 (n : Nat) : Nat := min (n + 1) 4294967295

/-- R97: the sequenced frame of a slot starts transmission. -/
def State.startFrame (s : State) (q : Slot) : State :=
  let first := decide (q.seq = s.lnk.sentCnt)
  { s with
    lnk := s.lnk.start q
    stats := s.stats.count (if first then .framesSent else .framesResent)
    frz := s.frz.update fun r =>
      if first then { r with framesSent := bump32 r.framesSent } else { r with framesResent := bump32 r.framesResent }
    out := s.out ++ [.frameStart q.frame.bytes] }

/-- START_TRANSMISSION (R96, R97). -/
def execStartTransmission (s : State) : Host.Outcome State Fault Refusal :=
  .next <|
    match s.lnk.startable with
    | some q => s.startFrame q
    | none => s

/-- START_ABANDON (R113). -/
def execStartAbandon (s : State) : Host.Outcome State Fault Refusal :=
  .next <|
    match s.lnk.abandon with
    | some (epoch, cause) =>
      if s.lnk.lineReady then
        { s with
          lnk := { s.lnk with abandon := none, tx := some (.abandon epoch cause) }
          out := s.out ++ [.frameStart (Frame.abandon epoch cause).bytes] }
      else s
    | none => s

/-- TRANSMISSION_END (R97): nothing in the buffer changes; the line becomes free. -/
def execTransmissionEnd (s : State) : Host.Outcome State Fault Refusal :=
  .next <|
    if s.lnk.tx.isSome then { s with lnk := { s.lnk with tx := none }, out := s.out ++ [.frameEnd] } else s

/-! ### Acknowledgement and rounds (R101, R102, R109, R110) -/

/-- R101, R102: the frames below `upto` are acknowledged: their slots are freed, A is `upto`, and T is not below it. -/
def Lnk.ackBelow (l : Lnk) (upto : Nat) : Lnk :=
  { l with slots := l.slots.filter (fun q => decide (upto ≤ q.seq)), ackPt := upto, txPt := max l.txPt upto }

/-- R110: a SENT slot at or above the starting point returns to READY. -/
def Slot.rewind (start : Nat) (q : Slot) : Slot := if q.st = .sent ∧ start ≤ q.seq then { q with st := .ready } else q

/-- R110: the link controller at a retransmission round. -/
def Lnk.round (l : Lnk) (start : Nat) : Lnk :=
  { l with retry := l.retry + 1, slots := l.slots.map (Slot.rewind start), txPt := start, ackTimer := 0 }

/-- R110: a round from `start`, or the break where the retry limit would be exceeded. -/
def State.startRound (s : State) (start : Nat) : State :=
  if s.lnk.retryLim.toNat < s.lnk.retry + 1 then s.breakEpoch .linkRetry
  else State.raise { s with lnk := s.lnk.round start } .linkRetry

/-- R109: the expiry of the ack timer. -/
def State.ackExpire (s : State) : State := (s.count .ackTimeouts).startRound s.lnk.ackPt

/-- R109: the ack timer counts while a slot is SENT and no pause is in force. -/
def Lnk.ackRuns (l : Lnk) : Bool := (l.slots.any fun q => decide (q.st = .sent)) && decide (l.pauseTimer = 0)

/-- ACK_TIMER_EXPIRY (R109, R104). -/
def execAckTimerExpiry (s : State) : Host.Outcome State Fault Refusal :=
  .next (if s.lnk.ackRuns && decide (s.lnk.ackTmo.toNat ≤ s.lnk.ackTimer) then s.ackExpire else s)

/-! ### Inbound frames (R99, R100) -/

/-- R100: the class of a frame's epoch number. -/
inductive EpochClass where
  | current | stale | foreign
  deriving DecidableEq, Repr

/-- R100. -/
def State.classOf (s : State) (epoch : Word16) : EpochClass :=
  if s.frz.active ∧ epoch = s.lnk.curEpoch then .current
  else if epoch = s.lnk.prevEpoch ∧ epoch ≠ 0 then .stale
  else .foreign

/-- R100, R108: a stale frame is counted; a foreign one is a protocol fault, or counted with no epoch active. -/
def State.notCurrent (s : State) (c : EpochClass) : State :=
  if c = .foreign ∧ s.frz.active then s.breakEpoch .linkProtocol else s.count .badFramesRcvd

/-- R101: an ACK for the current epoch, `n` adjusted for END. -/
def State.ackCurrent (s : State) (n : Nat) : State :=
  if n < s.lnk.ackPt then s.count .badFramesRcvd
  else if s.lnk.sentCnt ≤ n then s.breakEpoch .linkProtocol
  else { s with lnk := { s.lnk.ackBelow (n + 1) with retry := 0, ackTimer := 0 } }

/-- R101: an ACK naming END is treated as one naming the frame before it. -/
def adjustEnd (endSeq n : Nat) : Nat := if n = endSeq then n - 1 else n

/-- R101. -/
def State.receiveAck (s : State) (epoch : Word16) (n : Word32) : State :=
  match s.classOf epoch with
  | .current => s.ackCurrent (adjustEnd s.cap.endSeq n.toNat)
  | c => s.notCurrent c

/-- R102: a NAK for the current epoch, already counted. -/
def State.nakCurrent (s : State) (n : Nat) : State :=
  if n < s.lnk.ackPt ∨ s.lnk.sentCnt ≤ n then s.breakEpoch .linkProtocol
  else State.startRound { s with lnk := s.lnk.ackBelow n } n

/-- R102. -/
def State.receiveNak (s : State) (epoch : Word16) (n : Word32) : State :=
  match s.classOf epoch with
  | .current => (s.count .naksRcvd).nakCurrent n.toNat
  | c => s.notCurrent c

/-- R103, R105: the pause timer takes the quantum; a quantum of 0 ends a pause. -/
def Lnk.setPause (l : Lnk) (q : Nat) : Lnk :=
  { l with pauseTimer := q, contPause := if q = 0 then 0 else l.contPause }

/-- R103. -/
def State.receivePause (s : State) (q : Word16) : State :=
  State.count { s with lnk := s.lnk.setPause q.toNat } .pausesRcvd

/-- R106: the link controller at an accepted COMMIT; T is kept from standing below A (R95, log 16). -/
def Lnk.acceptCommit (l : Lnk) (frames : Nat) (epoch : Word16) : Lnk :=
  { l with slots := [], ackPt := frames, txPt := max l.txPt frames, retry := 0, ackTimer := 0, ctl := .idle,
           prevEpoch := epoch }

/-- R106. -/
def State.receiveCommit (s : State) (epoch : Word16) : State :=
  match s.classOf epoch with
  | .current =>
    if s.lnk.ctl = .awaitCommit then
      State.commitEpoch { s with lnk := s.lnk.acceptCommit s.cap.plan.length epoch }
    else s.breakEpoch .linkProtocol
  | c => s.notCurrent c

/-- R107, R193: the reason a REJECT carries; a value that codes none is OTHER. -/
def rejectReason (b : Byte) : RejectReason :=
  if b = 1 then .noBaseline else if b = 2 then .noSpace else .other

/-- R107: the reason is stored, NO_BASELINE makes the baseline INVALID, and the epoch breaks. -/
def State.receiveReject (s : State) (epoch : Word16) (reason : Byte) : State :=
  match s.classOf epoch with
  | .current =>
    State.breakEpoch
      { s with
        lnk := { s.lnk with lastReject := rejectReason reason }
        frz := { s.frz with baseline := s.frz.baseline && decide (rejectReason reason ≠ .noBaseline) } } .rejected
  | c => s.notCurrent c

/-- R99: a frame received whole: discarded and counted, or acted on by the rule of its kind. -/
def State.receiveRaw (s : State) (f : RawFrame) : State :=
  if !f.passes then s.count .badFramesRcvd
  else if f.kind = kindAck then s.receiveAck (f.field16 0) (f.field32 2)
  else if f.kind = kindNak then s.receiveNak (f.field16 0) (f.field32 2)
  else if f.kind = kindPause then s.receivePause (f.field16 0)
  else if f.kind = kindCommit then s.receiveCommit (f.field16 0)
  else s.receiveReject (f.field16 0) (f.body.getD 2 0)

/-- R89: inbound frames are received only while the link is UP (log 17). -/
def State.inbound (s : State) (receive : State → State) : State := if s.lnk.up then receive s else s

/-- ACK (R101). -/
def execAck (epoch : Word16) (n : Word32) (s : State) : Host.Outcome State Fault Refusal :=
  .next (s.inbound fun s => s.receiveAck epoch n)

/-- NAK (R102). -/
def execNak (epoch : Word16) (n : Word32) (s : State) : Host.Outcome State Fault Refusal :=
  .next (s.inbound fun s => s.receiveNak epoch n)

/-- PAUSE (R103). -/
def execPause (q : Word16) (s : State) : Host.Outcome State Fault Refusal :=
  .next (s.inbound fun s => s.receivePause q)

/-- COMMIT (R106). -/
def execCommit (epoch : Word16) (s : State) : Host.Outcome State Fault Refusal :=
  .next (s.inbound fun s => s.receiveCommit epoch)

/-- REJECT (R107). -/
def execReject (epoch : Word16) (reason : Byte) (s : State) : Host.Outcome State Fault Refusal :=
  .next (s.inbound fun s => s.receiveReject epoch reason)

/-- INBOUND_FRAME_DISCARDED (R99): the check is made on the frame as received; a frame that passes it is acted on. -/
def execInboundFrameDiscarded (f : RawFrame) (s : State) : Host.Outcome State Fault Refusal :=
  .next (s.inbound fun s => s.receiveRaw f)

/-! ### Pause timers (R103, R105) -/

/-- PAUSE_TIMER_EXPIRY (R103): the last count of the pause timer; the pause ends (log 4). -/
def execPauseTimerExpiry (s : State) : Host.Outcome State Fault Refusal :=
  .next (if s.lnk.pauseTimer ≤ 1 then { s with lnk := s.lnk.setPause 0 } else s)

/-- R105: the continuous-pause timer stands at or above 1000 times a non-zero limit while a pause is in force. -/
def Lnk.pauseDue (l : Lnk) : Bool :=
  decide (0 < l.pauseTimer) && decide (l.pauseLim ≠ 0) && decide (Config.ticksPerMs * l.pauseLim.toNat ≤ l.contPause)

/-- CONTINUOUS_PAUSE_EXPIRY (R105). -/
def execContinuousPauseExpiry (s : State) : Host.Outcome State Fault Refusal :=
  .next (if s.lnk.pauseDue then s.breakEpoch .pauseLimit else s)

end Sys2Proof.Machine
end

