-- ==== Sys2Proof/Machine/MemoryPort.lean ====
section
/-! DEFINITION. The memory port and the arbiter (07): grants, the sending of accesses to the memory controller, and
completions handed to their requesters. -/

namespace Sys2Proof.Machine

/-! ### The memory queue (R139, R140) -/

/-- R139: the number of ISSUED entries. -/
def Mp.issuedCount (m : Mp) : Nat := m.queue.countP MemEntry.issued

/-- R139: a slot of the memory queue is free. -/
def Mp.slotFree (m : Mp) : Bool := decide (m.queue.length < Config.memorySlots)

/-- R140: the oldest WAITING entry becomes ISSUED. -/
def issueOldest : List MemEntry → List MemEntry
  | [] => []
  | e :: es => if e.issued then e :: issueOldest es else { e with issued := true } :: es

/-- R140, 10.8: what is sent to the memory controller for an entry. -/
def MemEntry.output (e : MemEntry) : Output :=
  match e.access with
  | .liveRead _ => .memRead e.block
  | .liveWrite _ mask data => .memWrite e.block mask data
  | .drain mask data => .memWrite e.block mask data
  | .copier => .memRead e.block

/-- R140: with a WAITING entry and a credit, the oldest WAITING entry is sent and uses the credit, a read also while an earlier
write is ISSUED: the model's reading of R140 beside R142 (log 31). -/
def State.sendToMemory (s : State) : State :=
  match s.mp.queue.find? fun e => !e.issued with
  | some e =>
    if 0 < s.mp.credits then
      { s with
        mp := { s.mp with queue := issueOldest s.mp.queue, credits := s.mp.credits - 1 }
        out := s.out ++ [e.output] }
    else s
  | none => s

/-! ### The arbiter (R143 to R146) -/

/-- R143: a requester has work. -/
def State.hasWork (s : State) : Requester → Bool
  | .live => !s.sp.live.isEmpty
  | .drain =>
    decide (s.frz.st = .draining) && (s.jrn.oldestEligible s.sp.live).isSome &&
      decide (s.jrn.issuedCount < Config.drainInFlight)
  | .copier => s.copierHasRead

/-- R146: a requester's weight. -/
def Weights.of (w : Weights) : Requester → Nat
  | .live => w.live.toNat
  | .drain => w.drain.toNat
  | .copier => w.copier.toNat

/-- R144: the next requester. -/
def Requester.next : Requester → Requester
  | .live => .drain
  | .drain => .copier
  | .copier => .live

/-- R144, R146: the arbiter moves on with a count of 0; from COPIER to LIVE a new round takes the stored weights. -/
def Mp.move (m : Mp) : Mp :=
  { m with pos := m.pos.next, grants := 0, cur := if m.pos = .copier then m.cfg else m.cur }

/-- R144: the arbiter moves past requesters, at most `k` of them, until one has work and share left. -/
def Mp.seek (work : Requester → Bool) : Nat → Mp → Mp
  | 0, m => m
  | k + 1, m => if work m.pos && decide (m.grants < m.cur.of m.pos) then m else Mp.seek work k m.move

/-- R144: the winner's count rises by one; with its share used up the arbiter moves on at once. -/
def Mp.won (m : Mp) : Mp :=
  if m.grants + 1 < m.cur.of m.pos then { m with grants := m.grants + 1 } else m.move

/-- R139: an access joins the tail WAITING. -/
def Mp.append (m : Mp) (a : MemAccess) (b : Addr) : Mp :=
  { m with queue := m.queue ++ [{ access := a, block := b, issued := false }] }

/-- The access of a live-queue entry (R145). -/
def LiveEntry.access : LiveEntry → MemAccess
  | .read _ id => .liveRead id
  | .write _ mask data id => .liveWrite id mask data

/-- R145: a grant takes one access from the winner; R79 lowers the fence count at a grant to LIVE. -/
def State.grantTo (s : State) : Requester → State
  | .live =>
    match s.sp.live with
    | q :: rest =>
      { s with
        sp := { s.sp with live := rest }
        mp := s.mp.append q.access q.block
        cap := { s.cap with fence := s.cap.fence - 1 } }
    | [] => s
  | .drain =>
    match s.jrn.oldestEligible s.sp.live with
    | some e =>
      { s with jrn := s.jrn.update e.block JEntry.issue, mp := s.mp.append (.drain e.mask e.data) e.block }
    | none => s
  | .copier => { s.copierIssue.1 with mp := s.mp.append .copier s.copierIssue.2 }

/-- R144: a grant opportunity exists. -/
def State.grantPossible (s : State) : Bool :=
  s.mp.slotFree && (s.hasWork .live || s.hasWork .drain || s.hasWork .copier)

/-- How many requesters the arbiter may have to look at before one wins: it never passes all three twice (R144). -/
def arbiterLooks : Nat := 6

/-- R144, R145, R140: one grant, and the sending it makes possible. -/
def State.grantOne (s : State) : State :=
  let m := Mp.seek s.hasWork arbiterLooks s.mp
  State.sendToMemory (State.grantTo { s with mp := m.won } m.pos)

/-- GRANT (R144). -/
def execGrant (s : State) : Host.Outcome State Fault Refusal :=
  .next (if s.grantPossible then s.grantOne else s)

/-! ### Completions (R141, R147 to R150) -/

/-- A response sent, unless its record is silent (R136). -/
def unlessSilent (silent : Bool) (o : Output) : List Output := if silent then [] else [o]

/-- R148: a block's bytes with the capture of the record laid over them. -/
def ReadRec.overlaid (r : ReadRec) (data : Block) : Block :=
  match r.capture with
  | some c => overlay c.mask c.data data
  | none => data

/-- R148: the data of READ_DONE. -/
def ReadRec.response (r : ReadRec) (data : Block) : List Byte :=
  blockBytes (r.overlaid data) (offsetOf r.addr) r.len.toNat

/-- R131, R148: a LIVE block read completes. -/
def State.liveReadDone (s : State) (id : Nat) (ok : Bool) (data : Block) : State :=
  match s.sp.reads.find? fun r => decide (r.id = id) with
  | some r =>
    let t := { s with sp := { s.sp with reads := s.sp.reads.filter fun q => decide (q.id ≠ id) } }
    if ok then { t with out := s.out ++ unlessSilent r.silent (.readDone r.initiator r.tag .ok (r.response data)) }
    else
      { t with
        alert := s.alert.raise .memError
        stats := s.stats.count .memReadErrors
        out := s.out ++ unlessSilent r.silent (.readDone r.initiator r.tag .memError []) }
  | none => s

/-- R131, R149: a LIVE masked block write completes. -/
def State.liveWriteDone (s : State) (id : Nat) (ok : Bool) : State :=
  match s.sp.writes.find? fun r => decide (r.id = id) with
  | some r =>
    let t := { s with sp := { s.sp with writes := s.sp.writes.filter fun q => decide (q.id ≠ id) } }
    if ok then { t with out := s.out ++ unlessSilent r.silent (.writeDone r.initiator r.tag .ok) }
    else
      { t with
        alert := s.alert.raise .memError
        stats := s.stats.count .memWriteErrors
        out := s.out ++ unlessSilent r.silent (.writeDone r.initiator r.tag .memError) }
  | none => s

/-- R53, R54: an entry is lost. -/
def State.drainLoss (s : State) (e : JEntry) : State :=
  { s with
    jrn := { s.jrn.remove e.block with fault := s.jrn.fault.record e }
    alert := s.alert.raise .drainLoss
    stats := s.stats.count .drainLosses }

/-- R51, R52, R53: a drain write of an entry completes. -/
def State.drainDone (s : State) (e : JEntry) (ok : Bool) : State :=
  if ok then
    if e.redirty then { s with jrn := s.jrn.update e.block JEntry.again }
    else State.endDrain { s with jrn := s.jrn.remove e.block }
  else if e.retry < 2 then { s with jrn := s.jrn.update e.block JEntry.failed }
  else (s.drainLoss e).endDrain

/-- R81, R82, R83: a read of the active epoch completes. -/
def State.copierReadDone (s : State) (ok : Bool) (data : Block) : State :=
  if ok then
    match s.lnk.slots.find? Slot.isFilling with
    | some q =>
      let t := s.storeRead q data
      if t.imageRead then t.captureComplete else t
    | none => s
  else s.breakEpoch .memRead

/-- R86: a completion of a copier read: a stale one is discarded whatever its status. -/
def State.copierDone (s : State) (ok : Bool) (data : Block) : State :=
  let t := { s with cap := { s.cap with reads := s.cap.reads - 1, stale := s.cap.stale - 1 } }
  if 0 < s.cap.stale then t else t.copierReadDone ok data

/-- R147: a completion is handed to the requester of its entry. -/
def State.handOver (s : State) (e : MemEntry) (ok : Bool) (data : Block) : State :=
  match e.access with
  | .liveRead id => s.liveReadDone id ok data
  | .liveWrite id _ _ => s.liveWriteDone id ok
  | .drain _ _ =>
    match s.jrn.find e.block with
    | some q => s.drainDone q ok
    | none => s
  | .copier => s.copierDone ok data

/-- R141: the head entry leaves the queue and its credit returns. -/
def Mp.retire (m : Mp) (rest : List MemEntry) : Mp := { m with queue := rest, credits := m.credits + 1 }

/-- COMPLETION (R141): it belongs to the oldest ISSUED entry, which is the head; with none it is spurious. The access that the
credit lets the port send stands in the outputs before the rest (log 22). -/
def execCompletion (ok : Bool) (data : Block) (s : State) : Host.Outcome State Fault Refusal :=
  .next <|
    match s.mp.queue with
    | e :: rest =>
      if e.issued then (State.sendToMemory { s with mp := s.mp.retire rest }).handOver e ok data
      else s.raise .portProtocol
    | [] => s.raise .portProtocol

end Sys2Proof.Machine
end

