-- ==== Sys2Proof/Machine/Reset.lean ====
section
/-! DEFINITION. Power-on reset and the final step of a controlled reset (01 R27, 02 R57, 03 R73, 04 R87, 05 R114, 06 R138,
07 R153, 08 R162 and R174 to R176, 09 R183 and R190). -/

namespace Sys2Proof.Machine

/-- POWER_ON_RESET: every block takes its power-on value, the straps are sampled as PORST_N is deasserted (R161), the memory
port is reset (R153), and a frame in transmission ends unfinished (R114). The commands waiting outside the part and what it
has already put out are kept (log 20). -/
def execPowerOnReset (straps : BitVec 4) (freezeReqHigh : Bool) (s : State) : Host.Outcome State Fault Refusal :=
  .next
    { State.reset with
      mgmt := { Mgmt.reset with straps := straps }
      frz := { Frz.reset with lineSeenLow := !freezeReqHigh }
      pending := s.pending
      out := s.out ++ s.lnk.cutOutput ++ [.memReset] }

/-- R174: the four conditions under which the final step is taken. -/
def State.resetReady (s : State) : Bool :=
  s.resetting && decide (s.frz.st = .idle) && s.sp.rlane.isEmpty && s.sp.wlane.isEmpty && s.sp.reads.isEmpty &&
    s.sp.writes.isEmpty && s.sp.live.isEmpty && s.mp.queue.isEmpty

/-- R137, R175: the withheld credits returned to the fabric partner. That every read credit returns before every write credit is
the model's choice (log 22): the manual gives the two lanes no order. -/
def Sp.returned (p : Sp) : List Output :=
  List.replicate p.rheld (.creditReturn .read) ++ List.replicate p.wheld (.creditReturn .write)

/-- R175: every block takes its value at the end of a controlled reset. Kept are the frame receiver and the last-accessed
register number (R162), the strapped address (R161), the link state (R114), a frame in transmission (R115) and the level of
the FREEZE_REQ line, so that a line then high gives no edge until it has been seen low (R10, log 5). -/
def State.finalStep (s : State) : State :=
  { State.reset with
    frz := { Frz.reset with lineSeenLow := s.frz.lineSeenLow }
    lnk := { Lnk.reset with up := s.lnk.up, tx := s.lnk.tx }
    mgmt := { Mgmt.reset with rx := s.mgmt.rx, lastReg := s.mgmt.lastReg, straps := s.mgmt.straps }
    pending := s.pending
    out := s.out ++ s.sp.returned }

/-- CONTROLLED_RESET_FINAL_STEP (R174, R175). -/
def execControlledResetFinalStep (s : State) : Host.Outcome State Fault Refusal :=
  .next (if s.resetReady then s.finalStep else s)

end Sys2Proof.Machine
end

