-- ==== Sys2Proof/Machine/Registers.lean ====
section
/-! DEFINITION. What registers read: the fields of 10.6 put together from the state they show, and the effects of a read
(10.3, R185, R189). -/

namespace Sys2Proof.Machine

/-- Fields of a register, each a value and the number of its lowest bit (10.6). -/
def fields (fs : List (Nat × Nat)) : Nat := (fs.map fun f => f.1 * 2 ^ f.2).sum

/-- A flag as a field. -/
def flag (b : Bool) : Nat := if b then 1 else 0

/-- 10.6. -/
def Source.code : Source → Nat
  | .mgmt => 1 | .line => 2 | .marker => 3

/-- 10.6. -/
def FreezeState.code : FreezeState → Nat
  | .idle => 0 | .frozen => 1 | .draining => 2

/-- 10.6. -/
def EpochState.code : EpochState → Nat
  | .capturing => 1 | .sending => 2 | .committed => 3 | .broken => 4

/-- 10.6. -/
def CmdResult.code : CmdResult → Nat
  | .none => 0 | .ok => 1 | .refusedState => 2 | .refusedArgument => 3 | .cancelled => 4

/-- 10.6. -/
def CopierState.code : CopierState → Nat
  | .idle => 0 | .copying => 1 | .closing => 2

/-- 10.6. -/
def LinkCtl.code : LinkCtl → Nat
  | .idle => 0 | .sending => 1 | .tail => 2 | .awaitCommit => 3

/-- 10.6. -/
def RejectReason.code : RejectReason → Nat
  | .none => 0 | .noBaseline => 1 | .noSpace => 2 | .other => 3

/-- 10.6. -/
def Requester.code : Requester → Nat
  | .live => 0 | .drain => 1 | .copier => 2

/-- HIST_INFO of a record (R171, 10.6). -/
def EpochRecord.info (r : EpochRecord) : Nat :=
  fields [(r.source.code, 0), (r.kindRequested.code, 2), (r.kindPerformed.code, 4), (r.state.code, 6),
    ((match r.cause with | some c => c.code | none => 0), 9), (flag r.digest.isSome, 13)]

/-- FRZ_STAT (10.6). -/
def Frz.stat (z : Frz) : Nat :=
  fields [(z.st.code, 0), ((match z.history with | r :: _ => r.state.code | [] => 0), 2), (flag z.slot.isSome, 5),
    ((match z.slot with | some q => q.source.code | none => 0), 6),
    ((match z.slot with | some q => q.kind.code | none => 0), 8), (flag z.baseline, 10)]

/-- JRN_STAT (10.6). -/
def State.jrnStat (s : State) : Nat :=
  fields [(s.jrn.issuedCount, 0), (flag s.jrn.armed, 4), (flag (decide (s.frz.stall = some .exhaustion)), 5)]

/-- DRN_FAULT_INFO (10.6). -/
def DrainFault.info (f : DrainFault) : Nat :=
  fields [(f.block.toNat / 32 % 8, 0), (f.window, 3), (f.count, 8)]

/-- LNK_STAT (10.6). -/
def Lnk.stat (l : Lnk) : Nat :=
  fields [(flag l.up, 0), (l.ctl.code, 1), (flag (decide (0 < l.pauseTimer)), 3), (flag l.abandon.isSome, 4), (l.retry, 5),
    (l.slots.length, 9), (l.lastReject.code, 14)]

/-- SP_LANE_STAT (10.6). -/
def State.laneStat (s : State) : Nat :=
  fields [(s.sp.rlane.length, 0), (s.sp.wlane.length, 4), (s.sp.rcred, 8), (s.sp.wcred, 12), (flag s.resetting, 16)]

/-- SP_LIST_STAT (10.6). -/
def Sp.listStat (p : Sp) : Nat :=
  fields [(p.reads.length, 0), (p.writes.length, 6), (p.liveCount, 11), (flag (decide (0 < p.claims)), 16)]

/-- MEM_Q_STAT (10.6). -/
def Mp.stat (m : Mp) : Nat :=
  fields [(m.queue.length, 0), (m.issuedCount, 6), (m.pos.code, 11), (m.grants, 16)]

/-- CMD_STAT (10.6). -/
def Mgmt.cmdStat (g : Mgmt) : Nat :=
  fields [(flag g.busy, 0), (flag g.rejected, 1), (g.result.code, 2), (g.code, 8)]

/-- The counter behind a 16-bit register (10.4). -/
def Reg.counter : Reg → Option Counter
  | .naksRcvd => some .naksRcvd | .ackTimeouts => some .ackTimeouts | .pausesRcvd => some .pausesRcvd
  | .badFramesRcvd => some .badFramesRcvd | .epochsCommitted => some .epochsCommitted
  | .epochsBroken => some .epochsBroken | .jrnPeak => some .jrnPeak | .writeStalls => some .writeStalls
  | .formatErrors => some .formatErrors | .memReadErrors => some .memReadErrors
  | .memWriteErrors => some .memWriteErrors | .markersRefused => some .markersRefused
  | .freezesRefused => some .freezesRefused | .tagErrors => some .tagErrors | .drainLosses => some .drainLosses
  | .creditOverruns => some .creditOverruns | .mgmtFrameErrors => some .mgmtFrameErrors | .lockLosses => some .lockLosses
  | _ => none

/-- The counter behind a pair (10.4). -/
def Pair.counter : Pair → Option Counter
  | .framesSent => some .framesSent | .framesResent => some .framesResent | .jrnAllocs => some .jrnAllocs
  | .jrnMerges => some .jrnMerges
  | _ => none

/-- The value of a 16-bit register (10.4 to 10.6). -/
def State.readReg (s : State) (r : Reg) : Word16 :=
  match r with
  | .cmd => 0
  | .cmdArg => s.mgmt.arg
  | .cmdStat => BitVec.ofNat 16 s.mgmt.cmdStat
  | .mgmtStat => s.mgmt.straps.setWidth 16
  | .tickDiv => s.mgmt.tickDiv
  | .frzStat => BitVec.ofNat 16 s.frz.stat
  | .frzCfg => BitVec.ofNat 16 (fields [(s.frz.lineKind.code, 0), (s.frz.markerKind.code, 2)])
  | .stallLimit => s.frz.stallLimit
  | .epochLimit => s.frz.epochLimit
  | .histEpoch => s.mgmt.hist.epoch
  | .histInfo => s.mgmt.hist.info
  | .histGran => s.mgmt.hist.gran
  | .jrnOcc => BitVec.ofNat 16 s.jrn.occupancy
  | .jrnStat => BitVec.ofNat 16 s.jrnStat
  | .jrnCfg => BitVec.ofNat 16 (flag (decide (s.jrn.policy = .break_)))
  | .jrnHwm => s.jrn.hwm
  | .jrnLwm => s.jrn.lwm
  | .drnFaultInfo => BitVec.ofNat 16 s.jrn.fault.info
  | .drnFaultEpoch => s.jrn.fault.epoch
  | .winStgSize => s.win.stgSize
  | .winStgCtl => BitVec.ofNat 16 (fields [(s.win.stgKind.toNat, 0), (s.win.stgFill.toNat, 8)])
  | .mapCollCnt => BitVec.ofNat 16 s.maps.coll.length
  | .mapImgCnt => BitVec.ofNat 16 s.maps.img.length
  | .capStat => BitVec.ofNat 16 (fields [(s.cap.st.code, 0), (flag (decide (0 < s.cap.fence)), 2), (s.cap.stale, 8)])
  | .capRemain => BitVec.ofNat 16 s.cap.remain
  | .lnkStat => BitVec.ofNat 16 s.lnk.stat
  | .lnkPauseRem => BitVec.ofNat 16 s.lnk.pauseTimer
  | .lnkAckTmo => s.lnk.ackTmo
  | .lnkRetryLim => s.lnk.retryLim
  | .lnkPauseLim => s.lnk.pauseLim
  | .arbCfg =>
    BitVec.ofNat 16 (fields [(s.mp.cfg.live.toNat, 0), (s.mp.cfg.drain.toNat, 4), (s.mp.cfg.copier.toNat, 8)])
  | r =>
    match r.counter with
    | some c => BitVec.ofNat 16 (s.stats.get c)
    | none => 0

/-- The value of a pair (10.4 to 10.6). -/
def State.readPair (s : State) (p : Pair) : Word32 :=
  match p with
  | .alertStat => s.alert.status.setWidth 32
  | .alertMask => s.alert.mask.setWidth 32
  | .alertEn => 0
  | .alertDis => 0
  | .histSent => s.mgmt.hist.sent
  | .histResent => s.mgmt.hist.resent
  | .histFdur => s.mgmt.hist.fdur
  | .histDigest => s.mgmt.hist.digest
  | .drnFaultAddr => (s.jrn.fault.block >>> 8).setWidth 32
  | .winStgBase => s.win.stgBase
  | .winStgMapoff => s.win.stgMapoff
  | .lnkAckpt => BitVec.ofNat 32 s.lnk.ackPt
  | .lnkSentcnt => BitVec.ofNat 32 s.lnk.sentCnt
  | .spLaneStat => BitVec.ofNat 32 s.laneStat
  | .spListStat => BitVec.ofNat 32 s.sp.listStat
  | .memQStat => BitVec.ofNat 32 s.mp.stat
  | .framesSent => BitVec.ofNat 32 s.stats.framesSent
  | .framesResent => BitVec.ofNat 32 s.stats.framesResent
  | .jrnAllocs => BitVec.ofNat 32 s.stats.jrnAllocs
  | .jrnMerges => BitVec.ofNat 32 s.stats.jrnMerges

/-- The value a clear-on-read leaves a counter at: 0, or the occupancy for JRN_PEAK (R185, R189). -/
def State.clearedTo (s : State) (c : Counter) : Nat := if c = .jrnPeak then s.jrn.occupancy else 0

/-- R185, R189: the clear-on-read of a 16-bit register. -/
def State.clearReg (s : State) (r : Reg) : State :=
  match r.counter with
  | some c => { s with stats := s.stats.set c (s.clearedTo c) }
  | none => s

/-- R164, R180, R185: the clear-on-read of a pair. -/
def State.clearPair (s : State) (p : Pair) : State :=
  match p.counter with
  | some c => { s with stats := s.stats.set c 0 }
  | none => if p = .alertStat then { s with alert := s.alert.clear } else s

end Sys2Proof.Machine
end

