-- ==== Sys2Proof/Machine/Commands.lean ====
section
/-! DEFINITION. The commands written to CMD (08, R168 to R173): how a command is taken or rejected, and what each does. -/

namespace Sys2Proof.Machine

/-- The code of FREEZE (R168). -/
def codeFreeze : Nat := 1
/-- ABORT. -/
def codeAbort : Nat := 2
/-- INVALIDATE_BASELINE. -/
def codeInvalidateBaseline : Nat := 3
/-- WINDOW_WRITE. -/
def codeWindowWrite : Nat := 4
/-- WINDOW_READ. -/
def codeWindowRead : Nat := 5
/-- HISTORY_READ. -/
def codeHistoryRead : Nat := 6
/-- CLEAR_COUNTERS. -/
def codeClearCounters : Nat := 7
/-- RESET. -/
def codeReset : Nat := 8

/-- R8: the kind CMD_ARG names. -/
def kindOfArg (arg : Word16) : Option Kind :=
  if arg = 1 then some .full else if arg = 2 then some .delta else none

/-- FREEZE (R8). -/
def State.doFreeze (s : State) : State :=
  match kindOfArg s.mgmt.arg with
  | none => s.completeCommand .refusedArgument
  | some k =>
    if s.canFreeze then (s.freezePoint .mgmt k).completeCommand .ok
    else if s.frz.st = .frozen then s.completeCommand .refusedState
    else if s.frz.slot.isSome then s.completeCommand .refusedState
    else { s with frz := { s.frz with slot := some { source := .mgmt, kind := k } } }

/-- ABORT (R23): a request in the slot is cancelled, an active epoch is broken, and the command completes OK. -/
def State.doAbort (s : State) : State := (s.cancelSlot.breakEpoch .abort).completeCommand .ok

/-- INVALIDATE_BASELINE (R24). -/
def State.doInvalidateBaseline (s : State) : State :=
  State.completeCommand { s with frz := { s.frz with baseline := false } } .ok

/-- R63: a WINDOW_WRITE that passes its checks. -/
def State.setTable (s : State) (table : List Window) : State :=
  { s with
    win := { s.win with table := table }
    maps := Maps.reset
    frz := { s.frz with baseline := false } }

/-- WINDOW_WRITE (R61, R62, R63). -/
def State.doWindowWrite (s : State) : State :=
  if 7 < s.mgmt.arg.toNat then s.completeCommand .refusedArgument
  else if s.frz.active ∨ s.frz.st ≠ .idle then s.completeCommand .refusedState
  else
    match s.win.replaced s.mgmt.arg.toNat with
    | none => s.completeCommand .refusedArgument
    | some table => (s.setTable table).completeCommand .ok

/-- WINDOW_READ (R64). -/
def State.doWindowRead (s : State) : State :=
  if 7 < s.mgmt.arg.toNat then s.completeCommand .refusedArgument
  else State.completeCommand { s with win := s.win.load (windowAt s.win.table s.mgmt.arg.toNat) } .ok

/-- R171: a record copied into the history staging registers. -/
def EpochRecord.staging (r : EpochRecord) : HistStaging :=
  { epoch := r.number, info := BitVec.ofNat 16 r.info, gran := BitVec.ofNat 16 r.granules,
    sent := BitVec.ofNat 32 r.framesSent, resent := BitVec.ofNat 32 r.framesResent, fdur := BitVec.ofNat 32 r.duration,
    digest := r.digest.getD 0 }

/-- HISTORY_READ (R171, R26): an empty record reads as zeros. -/
def State.doHistoryRead (s : State) : State :=
  if 3 < s.mgmt.arg.toNat then s.completeCommand .refusedArgument
  else
    State.completeCommand
      { s with mgmt := { s.mgmt with
          hist := match s.frz.history[s.mgmt.arg.toNat]? with
            | some r => r.staging
            | none => HistStaging.reset } } .ok

/-- CLEAR_COUNTERS (R172). -/
def State.doClearCounters (s : State) : State :=
  State.completeCommand { s with stats := Stats.cleared s.jrn.occupancy } .ok

/-- RESET (R173): the slot is cancelled, an active epoch is broken, and then credits are withheld and requests refused. -/
def State.doReset (s : State) : State := { s.cancelSlot.breakEpoch .reset with resetting := true }

/-- R169: what CMD_STAT shows at the take of a command. -/
def Mgmt.take (g : Mgmt) (code : Nat) : Mgmt :=
  { g with busy := true, rejected := false, result := .none, code := if 1 ≤ code ∧ code ≤ 8 then code else 15 }

/-- R169: a command is taken and its operation begins; a code outside 1 to 8 completes REFUSED_ARGUMENT. -/
def State.takeCommand (s : State) (code : Nat) : State :=
  let t := { s with mgmt := s.mgmt.take code }
  match code with
  | 1 => t.doFreeze
  | 2 => t.doAbort
  | 3 => t.doInvalidateBaseline
  | 4 => t.doWindowWrite
  | 5 => t.doWindowRead
  | 6 => t.doHistoryRead
  | 7 => t.doClearCounters
  | 8 => t.doReset
  | _ => t.completeCommand .refusedArgument

/-- R9: a FREEZE waits in the pending-freeze slot. -/
def State.freezeWaits (s : State) : Bool := s.mgmt.busy && decide (s.mgmt.code = codeFreeze)

/-- R169: a WRITE to CMD is taken, taken over a waiting FREEZE (R9), or rejected. -/
def State.writeCmd (s : State) (code : Nat) : State :=
  if !s.mgmt.busy then s.takeCommand code
  else if s.freezeWaits ∧ (code = codeAbort ∨ code = codeReset) then
    (s.emptySlot.completeCommand .cancelled).takeCommand code
  else { s with mgmt := { s.mgmt with rejected := true } }

end Sys2Proof.Machine
end

