-- ==== Sys2Proof/Machine/Writes.lean ====
section
/-! DEFINITION. What a WRITE does to the register it names (10.3, R191): the write rules of the owning chapters. -/

namespace Sys2Proof.Machine

/-- R192: the kind a field of FRZ_CFG codes. -/
def kindOfField (n : Nat) : Option Kind := if n = 1 then some .full else if n = 2 then some .delta else none

/-- FRZ_CFG (R13, R192): not applied when either field holds 0 or 3. -/
def State.writeFrzCfg (s : State) (v : Word16) : State :=
  match kindOfField (v.toNat % 4), kindOfField (v.toNat / 4 % 4) with
  | some l, some m => { s with frz := { s.frz with lineKind := l, markerKind := m } }
  | _, _ => s

/-- STALL_LIMIT (R14): applies at once to a stall in progress. -/
def State.writeStallLimit (s : State) (v : Word16) : State :=
  let t := { s with frz := { s.frz with stallLimit := v } }
  if t.frz.stallDue then t.stallExpire else t

/-- EPOCH_LIMIT (R15): applies at once during CAPTURING. -/
def State.writeEpochLimit (s : State) (v : Word16) : State :=
  let t := { s with frz := { s.frz with epochLimit := v } }
  if t.frz.epochDue then t.breakEpoch .epochLimit else t

/-- JRN_HWM (R40). -/
def State.writeHwm (s : State) (v : Word16) : State :=
  if watermarksOk s.jrn.lwm v then { s with jrn := { s.jrn with hwm := v } } else s

/-- JRN_LWM (R40): an applied write arms the flag at or below the new low watermark. -/
def State.writeLwm (s : State) (v : Word16) : State :=
  if watermarksOk v s.jrn.hwm then { s with jrn := Jrn.rearm { s.jrn with lwm := v } } else s

/-- R192: the policy in bit 0 of JRN_CFG. -/
def policyOf (v : Word16) : Policy := if v.getLsbD 0 then .break_ else .hold

/-- JRN_CFG (R42, R47): BREAK during an exhaustion stall breaks the epoch with cause JOURNAL_FULL. -/
def State.writeJrnCfg (s : State) (v : Word16) : State :=
  let t := { s with jrn := { s.jrn with policy := policyOf v } }
  if s.jrn.policy = .hold ∧ policyOf v = .break_ ∧ s.frz.stall = some .exhaustion then t.breakEpoch .journalFull else t

/-- LNK_ACK_TMO (R111, log 15). -/
def State.writeAckTmo (s : State) (v : Word16) : State :=
  if v = 0 then s
  else
    let t := { s with lnk := { s.lnk with ackTmo := v } }
    if s.frz.active ∧ v.toNat ≤ s.lnk.ackTimer then t.ackExpire else t

/-- LNK_RETRY_LIM (R111). -/
def State.writeRetryLim (s : State) (v : Word16) : State :=
  if 1 ≤ v.toNat ∧ v.toNat ≤ 15 then { s with lnk := { s.lnk with retryLim := v } } else s

/-- LNK_PAUSE_LIM (R111). -/
def State.writePauseLim (s : State) (v : Word16) : State :=
  let t := { s with lnk := { s.lnk with pauseLim := v } }
  if t.lnk.pauseDue then t.breakEpoch .pauseLimit else t

/-- The weights a value of ARB_CFG holds (10.6). -/
def weightsOf (v : Word16) : Weights :=
  { live := v.extractLsb' 0 4, drain := v.extractLsb' 4 4, copier := v.extractLsb' 8 4 }

/-- ARB_CFG (R146): not applied when any field is 0. -/
def State.writeArbCfg (s : State) (v : Word16) : State :=
  let w := weightsOf v
  if w.live ≠ 0 ∧ w.drain ≠ 0 ∧ w.copier ≠ 0 then { s with mp := { s.mp with cfg := w } } else s

/-- TICK_DIV (R192): stored; the tick in progress keeps its divider (log 14). -/
def State.writeTickDiv (s : State) (v : Word16) : State :=
  if v = 0 then s else { s with mgmt := { s.mgmt with tickDiv := v } }

/-- A WRITE of a 16-bit register; read-only registers keep their value (R191). -/
def State.writeReg (s : State) (r : Reg) (v : Word16) : State :=
  match r with
  | .cmd => s.writeCmd v.toNat
  | .cmdArg => { s with mgmt := { s.mgmt with arg := v } }
  | .tickDiv => s.writeTickDiv v
  | .frzCfg => s.writeFrzCfg v
  | .stallLimit => s.writeStallLimit v
  | .epochLimit => s.writeEpochLimit v
  | .jrnCfg => s.writeJrnCfg v
  | .jrnHwm => s.writeHwm v
  | .jrnLwm => s.writeLwm v
  | .drnFaultInfo => { s with jrn := { s.jrn with fault := DrainFault.clear } }
  | .winStgSize => { s with win := { s.win with stgSize := v } }
  | .winStgCtl => { s with win := { s.win with stgKind := v.extractLsb' 0 2, stgFill := v.extractLsb' 8 8 } }
  | .lnkAckTmo => s.writeAckTmo v
  | .lnkRetryLim => s.writeRetryLim v
  | .lnkPauseLim => s.writePauseLim v
  | .arbCfg => s.writeArbCfg v
  | _ => s

/-- R166: the commit of a 32-bit value to a pair; a pair software cannot write keeps its value (R191). -/
def State.commitPair (s : State) (p : Pair) (v : Word32) : State :=
  match p with
  | .alertStat => { s with alert := s.alert.testWrite v }
  | .alertEn => { s with alert := s.alert.enable v }
  | .alertDis => { s with alert := s.alert.disable v }
  | .winStgBase => { s with win := { s.win with stgBase := v } }
  | _ => s

end Sys2Proof.Machine
end

