-- ==== Sys2Proof/Machine/Management.lean ====
section
/-! DEFINITION. The management link (08): the wide-access latch, register accesses, the frame receiver bit by bit, and the
frames of the management rows. -/

namespace Sys2Proof.Machine

/-! ### The wide-access latch (R163 to R167) -/

/-- The latch takes a value. -/
def State.setLatch (s : State) (l : Latch) : State := { s with mgmt := { s.mgmt with latch := l } }

/-- The low half of a pair's value. -/
def lowHalf (v : Word32) : Word16 := v.setWidth 16

/-- The high half of a pair's value. -/
def highHalf (v : Word32) : Word16 := (v >>> 16).setWidth 16

/-- R164: a read of the low half captures the pair and applies its clear-on-read. -/
def State.readLow (s : State) (p : Pair) : Word16 × State :=
  (lowHalf (s.readPair p), (s.clearPair p).setLatch (.capture p (s.readPair p)))

/-- R165: a read of the high half. -/
def State.readHigh (s : State) (p : Pair) : Word16 × State :=
  match s.mgmt.latch with
  | .capture q v => if q = p then (highHalf v, s) else (highHalf (s.readPair p), s.setLatch .invalid)
  | .lowWritten q _ => if q = p then (highHalf (s.readPair p), s) else (highHalf (s.readPair p), s.setLatch .invalid)
  | .invalid => (highHalf (s.readPair p), s.setLatch .invalid)

/-- R158, R163, R191: a read access, as the value taken and the state after its effects. -/
def State.readAccess (s : State) (n : Nat) : Word16 × State :=
  let t := { s with mgmt := { s.mgmt with lastReg := BitVec.ofNat 9 n } }
  match regAt n with
  | .word r => (t.readReg r, (t.clearReg r).setLatch .invalid)
  | .low p => t.readLow p
  | .high p => t.readHigh p
  | .unimplemented => (0, t.setLatch .invalid)

/-- R166: the low half a high-half write is joined with. -/
def State.joinedLow (s : State) (p : Pair) : Word16 :=
  match s.mgmt.latch with
  | .lowWritten q v => if q = p then v else lowHalf (s.readPair p)
  | _ => lowHalf (s.readPair p)

/-- R159, R163, R166, R191: a write access. -/
def State.writeAccess (s : State) (n : Nat) (v : Word16) : State :=
  let t := { s with mgmt := { s.mgmt with lastReg := BitVec.ofNat 9 n } }
  match regAt n with
  | .word r => (t.setLatch .invalid).writeReg r v
  | .low p => t.setLatch (.lowWritten p v)
  | .high p => (t.setLatch .invalid).commitPair p (v ++ t.joinedLow p)
  | .unimplemented => t.setLatch .invalid

/-! ### The frame receiver (R155 to R160) -/

/-- The number that bits hold, the newest bit least significant. -/
def bitsValue : List Bool → Nat
  | [] => 0
  | b :: bs => b.toNat + 2 * bitsValue bs

/-- The frame receiver takes a value. -/
def State.setRx (s : State) (r : Receiver) : State := { s with mgmt := { s.mgmt with rx := r } }

/-- The opcode of a header (R155): 1 READ, 2 WRITE, 3 READ_NEXT, 0 invalid. -/
def headerOpcode (h : Nat) : Nat := h / 8192

/-- The device address of a header. -/
def headerDevice (h : Nat) : Nat := h / 512 % 16

/-- The register number of a header. -/
def headerReg (h : Nat) : Nat := h % 512

/-- R160: the register a READ_NEXT accesses. -/
def State.nextReg (s : State) : Nat := (s.mgmt.lastReg.toNat + 1) % 512

/-- The receiver in TURNAROUND with what the frame is. -/
def Receiver.follow (bits : List Bool) (role : RxRole) : Receiver :=
  { phase := .turnaround, ones := 0, bits := bits, role := role, timer := 0 }

/-- R158: a read frame is sampled; the value taken is what the part drives. -/
def State.sampleRead (s : State) (bits : List Bool) (n : Nat) : State :=
  (s.readAccess n).2.setRx (Receiver.follow bits (.read (s.readAccess n).1))

/-- R157, R158, R160: the last bit of the register number has been sampled. -/
def State.headerDone (s : State) (bits : List Bool) : State :=
  let h := bitsValue bits
  if headerDevice h ≠ s.mgmt.straps.toNat then s.setRx (Receiver.follow bits .otherDevice)
  else if headerOpcode h = 0 then s.setRx (Receiver.follow bits .invalidOpcode)
  else if headerOpcode h = 2 then s.setRx (Receiver.follow bits .write)
  else if headerOpcode h = 1 then s.sampleRead bits (headerReg h)
  else s.sampleRead bits s.nextReg

/-- The number of ones among bits is odd. -/
def oddOnes (bits : List Bool) : Bool := decide (bits.count true % 2 = 1)

/-- The bits of a frame that its parity covers, the two turnaround bits left out; newest first, the parity bit ahead (R155). -/
def parityCovered (bits : List Bool) : List Bool := bits.take 17 ++ bits.drop 19

/-- The 16 data bits of a whole frame, the parity bit ahead of them. -/
def frameData (bits : List Bool) : Word16 := BitVec.ofNat 16 (bitsValue (bits.tail.take 16))

/-- The header of a whole frame. -/
def frameHeader (bits : List Bool) : Nat := bitsValue (bits.drop 19)

/-- The `k` lowest bits of a number, lowest first. -/
def lsbBits : Nat → Nat → List Bool
  | 0, _ => []
  | k + 1, n => decide (n % 2 = 1) :: lsbBits k (n / 2)

/-- R158: the parity bit the part drives: even over opcode, device address, register number and data. -/
def readParity (header : List Bool) (v : Word16) : Bool := oddOnes (header ++ lsbBits 16 v.toNat)

/-- R157, R158, R159: the parity bit has been sampled; the receiver returns to HUNT and the frame is acted on. -/
def State.frameDone (s : State) (role : RxRole) (bits : List Bool) : State :=
  let t := s.setRx Receiver.idle
  match role with
  | .unknown => t
  | .otherDevice => t
  | .invalidOpcode => t.mgmtFrameError
  | .read v => t.emit (.mdaWord v (readParity (bits.drop 19) v))
  | .write =>
    if oddOnes (parityCovered bits) then t.mgmtFrameError
    else t.writeAccess (headerReg (frameHeader bits)) (frameData bits)

/-- A bit joins the frame in progress and the receiver goes on in `phase`; the frame timer is set to 0 (R156). -/
def Receiver.push (r : Receiver) (b : Bool) (phase : RxPhase) : Receiver :=
  { r with phase := phase, bits := b :: r.bits, timer := 0 }

/-- R155: the bit that continues the start pattern 0, 0, 1, 0 after `k` of its bits. -/
def startBit (k : Nat) : Bool := decide (k = 2)

/-- R155, R156: one bit of MDA sampled at a rising edge of MCK. -/
def State.sampleBit (s : State) (b : Bool) : State :=
  let r := s.mgmt.rx
  match r.phase with
  | .hunt =>
    if b then s.setRx { r with ones := r.ones + 1 }
    else if Config.preambleOnes ≤ r.ones then
      s.setRx { phase := .start, ones := 0, bits := [false], role := .unknown, timer := 0 }
    else s.setRx { r with ones := 0 }
  | .start =>
    if b = startBit r.bits.length then
      if r.bits.length < 3 then s.setRx (r.push b .start)
      else s.setRx { phase := .header, ones := 0, bits := [], role := .unknown, timer := 0 }
    else s.setRx Receiver.idle
  | .header => if r.bits.length < 14 then s.setRx (r.push b .header) else s.headerDone (b :: r.bits)
  | .turnaround => s.setRx (r.push b (if r.bits.length < 16 then .turnaround else .data))
  | .data => s.setRx (r.push b (if r.bits.length < 32 then .data else .parity))
  | .parity => s.frameDone r.role (b :: r.bits)

/-- R158: what the part drives on MDA for the next rising edge; `none` while it releases the line. -/
def Receiver.drive (r : Receiver) : Option Bool :=
  match r.role with
  | .read v =>
    match r.phase with
    | .turnaround => if r.bits.length = 16 then some false else none
    | .data => some (v.getLsbD (15 - (r.bits.length - 17)))
    | .parity => some (readParity (r.bits.drop 18) v)
    | _ => none
  | _ => none

/-- Bits sampled one after another. -/
def State.feed (s : State) (bits : List Bool) : State := bits.foldl State.sampleBit s

/-! ### Frames on the line (10.2) -/

/-- The `k` lowest bits of a number, highest first, as they are sent. -/
def msbBits (k n : Nat) : List Bool := (lsbBits k n).reverse

/-- The start field (10.2). -/
def startField : List Bool := [false, false, true, false]

/-- Opcode, device address and register number as sent (10.2). -/
def headerBits (opcode : Nat) (device : BitVec 4) (reg : BitVec 9) : List Bool :=
  msbBits 2 opcode ++ (msbBits 4 device.toNat ++ msbBits 9 reg.toNat)

/-- The parity bit that makes the count of ones even, or the wrong one (R159). -/
def sentParity (header data : List Bool) (bad : Bool) : Bool := (oddOnes (header ++ data)).xor bad

/-- A frame that the controller drives to its end (10.2). -/
def drivenFrame (header : List Bool) (turn : BitVec 2) (data : Word16) (bad : Bool) : List Bool :=
  startField ++ (header ++ (msbBits 2 turn.toNat ++ (msbBits 16 data.toNat ++
    [sentParity header (msbBits 16 data.toNat) bad])))

/-- A read frame: after the register number the controller releases the line; the receiver does not examine the bits it
samples then. -/
def readFrame (header : List Bool) : List Bool := startField ++ (header ++ List.replicate 19 true)

/-- What arrives of a frame's bits (R155, R156): the ones ahead of it, and all of it or its first bit times. -/
def lineBits (l : Line) (frame : List Bool) : List Bool :=
  List.replicate l.ones true ++
    match l.cut with
    | none => frame
    | some k => frame.take k

/-- A WRITE frame addressed to the part arrives (R159). -/
def State.sendWrite (s : State) (w : WriteLine) (reg : BitVec 9) (data : Word16) : State :=
  s.feed (lineBits w.line (drivenFrame (headerBits 2 s.mgmt.straps reg) w.turn data w.badParity))

/-- A READ frame addressed to the part arrives (R158). -/
def State.sendRead (s : State) (l : Line) (reg : BitVec 9) : State :=
  s.feed (lineBits l (readFrame (headerBits 1 s.mgmt.straps reg)))

/-- The register number of a register, as sent. -/
def Reg.field (r : Reg) : BitVec 9 := BitVec.ofNat 9 r.number

/-- The register number of a pair's low half, as sent. -/
def Pair.lowField (p : Pair) : BitVec 9 := BitVec.ofNat 9 p.number

/-- The register number of a pair's high half, as sent. -/
def Pair.highField (p : Pair) : BitVec 9 := BitVec.ofNat 9 (p.number + 1)

/-! ### The commands (R168) -/

/-- FREEZE (R8, R169). -/
def execFreeze (w : WriteLine) (s : State) : Host.Outcome State Fault Refusal :=
  .next (s.sendWrite w Reg.cmd.field (BitVec.ofNat 16 codeFreeze))

/-- ABORT (R23, R169). -/
def execAbort (w : WriteLine) (s : State) : Host.Outcome State Fault Refusal :=
  .next (s.sendWrite w Reg.cmd.field (BitVec.ofNat 16 codeAbort))

/-- INVALIDATE_BASELINE (R24, R169). -/
def execInvalidateBaseline (w : WriteLine) (s : State) : Host.Outcome State Fault Refusal :=
  .next (s.sendWrite w Reg.cmd.field (BitVec.ofNat 16 codeInvalidateBaseline))

/-- WINDOW_WRITE (R61, R169). -/
def execWindowWrite (w : WriteLine) (s : State) : Host.Outcome State Fault Refusal :=
  .next (s.sendWrite w Reg.cmd.field (BitVec.ofNat 16 codeWindowWrite))

/-- WINDOW_READ (R64, R169). -/
def execWindowRead (w : WriteLine) (s : State) : Host.Outcome State Fault Refusal :=
  .next (s.sendWrite w Reg.cmd.field (BitVec.ofNat 16 codeWindowRead))

/-- HISTORY_READ (R171, R169). -/
def execHistoryRead (w : WriteLine) (s : State) : Host.Outcome State Fault Refusal :=
  .next (s.sendWrite w Reg.cmd.field (BitVec.ofNat 16 codeHistoryRead))

/-- CLEAR_COUNTERS (R172, R169). -/
def execClearCounters (w : WriteLine) (s : State) : Host.Outcome State Fault Refusal :=
  .next (s.sendWrite w Reg.cmd.field (BitVec.ofNat 16 codeClearCounters))

/-- RESET (R173, R169). -/
def execReset (w : WriteLine) (s : State) : Host.Outcome State Fault Refusal :=
  .next (s.sendWrite w Reg.cmd.field (BitVec.ofNat 16 codeReset))

/-- INVALID_COMMAND_CODE (R169). -/
def execInvalidCommandCode (w : WriteLine) (code : Word16) (s : State) : Host.Outcome State Fault Refusal :=
  .next (s.sendWrite w Reg.cmd.field code)

/-! ### Reads -/

/-- READ_NEXT (R160). -/
def execReadNext (l : Line) (field : BitVec 9) (s : State) : Host.Outcome State Fault Refusal :=
  .next (s.feed (lineBits l (readFrame (headerBits 3 s.mgmt.straps field))))

/-- READ_PAIR_LOW (R164). -/
def execReadPairLow (l : Line) (reg : BitVec 9) (s : State) : Host.Outcome State Fault Refusal := .next (s.sendRead l reg)

/-- READ_PAIR_HIGH (R165). -/
def execReadPairHigh (l : Line) (reg : BitVec 9) (s : State) : Host.Outcome State Fault Refusal := .next (s.sendRead l reg)

/-- COUNTER_READ (R185). -/
def execCounterRead (l : Line) (reg : BitVec 9) (s : State) : Host.Outcome State Fault Refusal := .next (s.sendRead l reg)

/-- JRN_PEAK_READ (R189). -/
def execJrnPeakRead (l : Line) (s : State) : Host.Outcome State Fault Refusal := .next (s.sendRead l Reg.jrnPeak.field)

/-- ALERT_STAT_READ (R180). -/
def execAlertStatRead (l : Line) (s : State) : Host.Outcome State Fault Refusal :=
  .next (s.sendRead l Pair.alertStat.lowField)

/-! ### Writes -/

/-- WRITE_REGISTER (R159). -/
def execWriteRegister (w : WriteLine) (reg : BitVec 9) (data : Word16) (s : State) : Host.Outcome State Fault Refusal :=
  .next (s.sendWrite w reg data)

/-- WRITE_PAIR_LOW (R166). -/
def execWritePairLow (w : WriteLine) (reg : BitVec 9) (data : Word16) (s : State) : Host.Outcome State Fault Refusal :=
  .next (s.sendWrite w reg data)

/-- WRITE_PAIR_HIGH (R166). -/
def execWritePairHigh (w : WriteLine) (reg : BitVec 9) (data : Word16) (s : State) : Host.Outcome State Fault Refusal :=
  .next (s.sendWrite w reg data)

/-- ALERT_STAT_TEST_WRITE (R181). -/
def execAlertStatTestWrite (w : WriteLine) (data : Word16) (s : State) : Host.Outcome State Fault Refusal :=
  .next (s.sendWrite w Pair.alertStat.highField data)

/-- ALERT_EN_WRITE (R179). -/
def execAlertEnWrite (w : WriteLine) (data : Word16) (s : State) : Host.Outcome State Fault Refusal :=
  .next (s.sendWrite w Pair.alertEn.highField data)

/-- ALERT_DIS_WRITE (R179). -/
def execAlertDisWrite (w : WriteLine) (data : Word16) (s : State) : Host.Outcome State Fault Refusal :=
  .next (s.sendWrite w Pair.alertDis.highField data)

/-- DRN_FAULT_INFO_WRITE (R54). -/
def execDrnFaultInfoWrite (w : WriteLine) (data : Word16) (s : State) : Host.Outcome State Fault Refusal :=
  .next (s.sendWrite w Reg.drnFaultInfo.field data)

/-- JRN_HWM_WRITE (R40). -/
def execJrnHwmWrite (w : WriteLine) (data : Word16) (s : State) : Host.Outcome State Fault Refusal :=
  .next (s.sendWrite w Reg.jrnHwm.field data)

/-- JRN_LWM_WRITE (R40). -/
def execJrnLwmWrite (w : WriteLine) (data : Word16) (s : State) : Host.Outcome State Fault Refusal :=
  .next (s.sendWrite w Reg.jrnLwm.field data)

/-- JRN_CFG_WRITE (R47). -/
def execJrnCfgWrite (w : WriteLine) (data : Word16) (s : State) : Host.Outcome State Fault Refusal :=
  .next (s.sendWrite w Reg.jrnCfg.field data)

/-- STALL_LIMIT_WRITE (R14). -/
def execStallLimitWrite (w : WriteLine) (data : Word16) (s : State) : Host.Outcome State Fault Refusal :=
  .next (s.sendWrite w Reg.stallLimit.field data)

/-- EPOCH_LIMIT_WRITE (R15). -/
def execEpochLimitWrite (w : WriteLine) (data : Word16) (s : State) : Host.Outcome State Fault Refusal :=
  .next (s.sendWrite w Reg.epochLimit.field data)

/-- FRZ_CFG_WRITE (R192). -/
def execFrzCfgWrite (w : WriteLine) (data : Word16) (s : State) : Host.Outcome State Fault Refusal :=
  .next (s.sendWrite w Reg.frzCfg.field data)

/-- LNK_ACK_TMO_WRITE (R111). -/
def execLnkAckTmoWrite (w : WriteLine) (data : Word16) (s : State) : Host.Outcome State Fault Refusal :=
  .next (s.sendWrite w Reg.lnkAckTmo.field data)

/-- LNK_RETRY_LIM_WRITE (R111). -/
def execLnkRetryLimWrite (w : WriteLine) (data : Word16) (s : State) : Host.Outcome State Fault Refusal :=
  .next (s.sendWrite w Reg.lnkRetryLim.field data)

/-- LNK_PAUSE_LIM_WRITE (R111). -/
def execLnkPauseLimWrite (w : WriteLine) (data : Word16) (s : State) : Host.Outcome State Fault Refusal :=
  .next (s.sendWrite w Reg.lnkPauseLim.field data)

/-- ARB_CFG_WRITE (R146). -/
def execArbCfgWrite (w : WriteLine) (data : Word16) (s : State) : Host.Outcome State Fault Refusal :=
  .next (s.sendWrite w Reg.arbCfg.field data)

/-- TICK_DIV_WRITE (R192). -/
def execTickDivWrite (w : WriteLine) (data : Word16) (s : State) : Host.Outcome State Fault Refusal :=
  .next (s.sendWrite w Reg.tickDiv.field data)

/-! ### Frames not acted on (R155 to R157) -/

/-- INVALID_OPCODE_FRAME (R157). -/
def execInvalidOpcodeFrame (w : WriteLine) (reg : BitVec 9) (data : Word16) (s : State) :
    Host.Outcome State Fault Refusal :=
  .next (s.feed (lineBits w.line (drivenFrame (headerBits 0 s.mgmt.straps reg) w.turn data w.badParity)))

/-- FRAME_FOR_OTHER_DEVICE (R157). -/
def execFrameForOtherDevice (w : WriteLine) (opcode : BitVec 2) (device : BitVec 4) (reg : BitVec 9) (data : Word16)
    (s : State) : Host.Outcome State Fault Refusal :=
  .next (s.feed (lineBits w.line (drivenFrame (headerBits opcode.toNat device reg) w.turn data w.badParity)))

/-- START_FIELD_MISMATCH (R155): the preamble, a zero, and start bits of which the last one differs. -/
def execStartFieldMismatch (ones : Nat) (at_ : Fin 3) (s : State) : Host.Outcome State Fault Refusal :=
  .next (s.feed (List.replicate ones true ++
    (startField.take (at_.val + 1) ++ [!startBit (at_.val + 1)])))

/-- FRAME_TIMER_EXPIRY (R156): the frame in progress is dropped; nothing is counted or raised. -/
def execFrameTimerExpiry (s : State) : Host.Outcome State Fault Refusal :=
  .next <|
    if s.mgmt.rx.phase ≠ .hunt ∧ Config.frameTimeout ≤ s.mgmt.rx.timer then s.setRx Receiver.idle else s

end Sys2Proof.Machine
end

