-- ==== Sys2Proof/Machine/Timers.lean ====
section
/-! DEFINITION. One tick (01 R10, R14, R15; 05 R103 to R105, R109; 08 R156; 10 R192): the running timers advance and
FREEZE_REQ is sampled. -/

namespace Sys2Proof.Machine

/-- R14, R15: the freeze controller's timers. -/
def Frz.tick (z : Frz) : Frz :=
  { z with
    stallTimer := z.stallTimer + if z.stall.isSome then 1 else 0
    epochTimer := z.epochTimer + if z.capturing then 1 else 0 }

/-- R103, R105, R109: the link controller's timers; the pause ends with the tick that brings its timer to 0 (log 4). -/
def Lnk.tick (l : Lnk) (active : Bool) : Lnk :=
  { l with
    ackTimer := l.ackTimer + if l.ackRuns then 1 else 0
    pauseTimer := l.pauseTimer - 1
    contPause := if l.pauseTimer ≤ 1 then 0 else l.contPause + if active then 1 else 0 }

/-- R156: the frame timer runs while a frame is in progress. -/
def Receiver.tick (r : Receiver) : Receiver := { r with timer := r.timer + if r.phase = .hunt then 0 else 1 }

/-- The running timers advance by one tick. -/
def State.advanceTimers (s : State) : State :=
  { s with frz := s.frz.tick, lnk := s.lnk.tick s.frz.active, mgmt := { s.mgmt with rx := s.mgmt.rx.tick } }

/-- TICK (R103, R10): the timers advance, then FREEZE_REQ is sampled, with the outcome of an edge if it is one (log 5). -/
def execTick (freezeReqHigh : Bool) (s : State) : Host.Outcome State Fault Refusal :=
  .next (s.advanceTimers.sampleLine freezeReqHigh)

/-- TICK_DIVIDER_APPLIED (R192): at the end of the tick in progress the stored divider takes effect. -/
def execTickDividerApplied (s : State) : Host.Outcome State Fault Refusal :=
  .next { s with mgmt := { s.mgmt with tickLen := s.mgmt.tickDiv } }

end Sys2Proof.Machine
end

