-- ==== Sys2Proof/Machine/Dispatch.lean ====
section
/-! DEFINITION. One arm per command, each one call of its meaning. -/

namespace Sys2Proof.Machine

def exec (i : Instr) (s : State) : Host.Outcome State Fault Refusal :=
  match i with
  | .freeze w => Sys2Proof.Machine.execFreeze w s
  | .abort w => Sys2Proof.Machine.execAbort w s
  | .invalidateBaseline w => Sys2Proof.Machine.execInvalidateBaseline w s
  | .windowWrite w => Sys2Proof.Machine.execWindowWrite w s
  | .windowRead w => Sys2Proof.Machine.execWindowRead w s
  | .historyRead w => Sys2Proof.Machine.execHistoryRead w s
  | .clearCounters w => Sys2Proof.Machine.execClearCounters w s
  | .reset w => Sys2Proof.Machine.execReset w s
  | .invalidCommandCode w code => Sys2Proof.Machine.execInvalidCommandCode w code s
  | .controlledResetFinalStep => Sys2Proof.Machine.execControlledResetFinalStep s
  | .powerOnReset straps freezeReqHigh => Sys2Proof.Machine.execPowerOnReset straps freezeReqHigh s
  | .sportReset => Sys2Proof.Machine.execSportReset s
  | .freezeReqEdge => Sys2Proof.Machine.execFreezeReqEdge s
  | .lockGained => Sys2Proof.Machine.execLockGained s
  | .lossOfLock => Sys2Proof.Machine.execLossOfLock s
  | .requestArrives r => Sys2Proof.Machine.execRequestArrives r s
  | .takeRead => Sys2Proof.Machine.execTakeRead s
  | .takeWrite => Sys2Proof.Machine.execTakeWrite s
  | .grant => Sys2Proof.Machine.execGrant s
  | .completion ok data => Sys2Proof.Machine.execCompletion ok data s
  | .placeFillFrame => Sys2Proof.Machine.execPlaceFillFrame s
  | .buildEnd => Sys2Proof.Machine.execBuildEnd s
  | .startTransmission => Sys2Proof.Machine.execStartTransmission s
  | .startAbandon => Sys2Proof.Machine.execStartAbandon s
  | .transmissionEnd => Sys2Proof.Machine.execTransmissionEnd s
  | .ack epoch n => Sys2Proof.Machine.execAck epoch n s
  | .nak epoch n => Sys2Proof.Machine.execNak epoch n s
  | .pause q => Sys2Proof.Machine.execPause q s
  | .commit epoch => Sys2Proof.Machine.execCommit epoch s
  | .reject epoch reason => Sys2Proof.Machine.execReject epoch reason s
  | .inboundFrameDiscarded f => Sys2Proof.Machine.execInboundFrameDiscarded f s
  | .ackTimerExpiry => Sys2Proof.Machine.execAckTimerExpiry s
  | .pauseTimerExpiry => Sys2Proof.Machine.execPauseTimerExpiry s
  | .continuousPauseExpiry => Sys2Proof.Machine.execContinuousPauseExpiry s
  | .stallTimerExpiry => Sys2Proof.Machine.execStallTimerExpiry s
  | .epochTimerExpiry => Sys2Proof.Machine.execEpochTimerExpiry s
  | .frameTimerExpiry => Sys2Proof.Machine.execFrameTimerExpiry s
  | .readNext l field => Sys2Proof.Machine.execReadNext l field s
  | .invalidOpcodeFrame w reg data => Sys2Proof.Machine.execInvalidOpcodeFrame w reg data s
  | .frameForOtherDevice w opcode device reg data => Sys2Proof.Machine.execFrameForOtherDevice w opcode device reg data s
  | .readPairLow l reg => Sys2Proof.Machine.execReadPairLow l reg s
  | .readPairHigh l reg => Sys2Proof.Machine.execReadPairHigh l reg s
  | .writePairLow w reg data => Sys2Proof.Machine.execWritePairLow w reg data s
  | .counterRead l reg => Sys2Proof.Machine.execCounterRead l reg s
  | .jrnPeakRead l => Sys2Proof.Machine.execJrnPeakRead l s
  | .alertStatRead l => Sys2Proof.Machine.execAlertStatRead l s
  | .alertStatTestWrite w data => Sys2Proof.Machine.execAlertStatTestWrite w data s
  | .alertEnWrite w data => Sys2Proof.Machine.execAlertEnWrite w data s
  | .alertDisWrite w data => Sys2Proof.Machine.execAlertDisWrite w data s
  | .drnFaultInfoWrite w data => Sys2Proof.Machine.execDrnFaultInfoWrite w data s
  | .jrnHwmWrite w data => Sys2Proof.Machine.execJrnHwmWrite w data s
  | .jrnLwmWrite w data => Sys2Proof.Machine.execJrnLwmWrite w data s
  | .jrnCfgWrite w data => Sys2Proof.Machine.execJrnCfgWrite w data s
  | .stallLimitWrite w data => Sys2Proof.Machine.execStallLimitWrite w data s
  | .epochLimitWrite w data => Sys2Proof.Machine.execEpochLimitWrite w data s
  | .frzCfgWrite w data => Sys2Proof.Machine.execFrzCfgWrite w data s
  | .lnkAckTmoWrite w data => Sys2Proof.Machine.execLnkAckTmoWrite w data s
  | .lnkRetryLimWrite w data => Sys2Proof.Machine.execLnkRetryLimWrite w data s
  | .lnkPauseLimWrite w data => Sys2Proof.Machine.execLnkPauseLimWrite w data s
  | .arbCfgWrite w data => Sys2Proof.Machine.execArbCfgWrite w data s
  | .tickDivWrite w data => Sys2Proof.Machine.execTickDivWrite w data s
  | .tickDividerApplied => Sys2Proof.Machine.execTickDividerApplied s
  | .writeRegister w reg data => Sys2Proof.Machine.execWriteRegister w reg data s
  | .writePairHigh w reg data => Sys2Proof.Machine.execWritePairHigh w reg data s
  | .startFieldMismatch ones at_ => Sys2Proof.Machine.execStartFieldMismatch ones at_ s
  | .tick freezeReqHigh => Sys2Proof.Machine.execTick freezeReqHigh s

end Sys2Proof.Machine
end

