-- ==== Sys2Proof/WellFormed.lean ====
section
/-! DEFINITION. When a command is a well-formed instance of its row: the checks concern the operands alone. A command that
fails one still has a meaning (the frame, the register number or the raw frame is handled for what it is); the check says
that it is not the event its row names. -/

namespace Sys2Proof

open Machine

/-- A whole management frame after a full preamble (R155). -/
def Line.wf (l : Line) : Bool := decide (Config.preambleOnes ≤ l.ones) && l.cut.isNone

/-- A whole WRITE frame; a wrong parity bit is a form of the row (R159). -/
def WriteLine.wf (w : WriteLine) : Bool := w.line.wf

/-- The register number names the low half of a pair. -/
def isPairLow (reg : BitVec 9) : Bool :=
  match regAt reg.toNat with
  | .low _ => true
  | _ => false

/-- The register number names the high half of a pair. -/
def isPairHigh (reg : BitVec 9) : Bool :=
  match regAt reg.toNat with
  | .high _ => true
  | _ => false

/-- The register number names an 8-bit or 16-bit counter. -/
def isCounter (reg : BitVec 9) : Bool :=
  match regAt reg.toNat with
  | .word r => r.clearsOnRead
  | _ => false

/-- The register number names no half of a pair and no register whose WRITE has a row of its own. -/
def isPlainWrite (reg : BitVec 9) : Bool :=
  match regAt reg.toNat with
  | .word r => !r.hasWriteRow
  | .unimplemented => true
  | _ => false

/-- The well-formed commands. -/
def Instr.wf : Instr → Bool
  | .freeze w => w.wf
  | .abort w => w.wf
  | .invalidateBaseline w => w.wf
  | .windowWrite w => w.wf
  | .windowRead w => w.wf
  | .historyRead w => w.wf
  | .clearCounters w => w.wf
  | .reset w => w.wf
  | .invalidCommandCode w code => w.wf && !(decide (1 ≤ code.toNat) && decide (code.toNat ≤ 8))
  | .controlledResetFinalStep => true
  | .powerOnReset _ _ => true
  | .sportReset => true
  | .freezeReqEdge => true
  | .lockGained => true
  | .lossOfLock => true
  | .requestArrives _ => true
  | .takeRead => true
  | .takeWrite => true
  | .grant => true
  | .completion _ _ => true
  | .placeFillFrame => true
  | .buildEnd => true
  | .startTransmission => true
  | .startAbandon => true
  | .transmissionEnd => true
  | .ack _ _ => true
  | .nak _ _ => true
  | .pause _ => true
  | .commit _ => true
  | .reject _ _ => true
  | .inboundFrameDiscarded f => !f.passes
  | .ackTimerExpiry => true
  | .pauseTimerExpiry => true
  | .continuousPauseExpiry => true
  | .stallTimerExpiry => true
  | .epochTimerExpiry => true
  | .frameTimerExpiry => true
  | .readNext l _ => l.wf
  | .invalidOpcodeFrame w _ _ => w.wf
  | .frameForOtherDevice w _ _ _ _ => w.wf
  | .readPairLow l reg => l.wf && isPairLow reg
  | .readPairHigh l reg => l.wf && isPairHigh reg
  | .writePairLow w reg _ => w.wf && isPairLow reg
  | .counterRead l reg => l.wf && isCounter reg
  | .jrnPeakRead l => l.wf
  | .alertStatRead l => l.wf
  | .alertStatTestWrite w _ => w.wf
  | .alertEnWrite w _ => w.wf
  | .alertDisWrite w _ => w.wf
  | .drnFaultInfoWrite w _ => w.wf
  | .jrnHwmWrite w _ => w.wf
  | .jrnLwmWrite w _ => w.wf
  | .jrnCfgWrite w _ => w.wf
  | .stallLimitWrite w _ => w.wf
  | .epochLimitWrite w _ => w.wf
  | .frzCfgWrite w _ => w.wf
  | .lnkAckTmoWrite w _ => w.wf
  | .lnkRetryLimWrite w _ => w.wf
  | .lnkPauseLimWrite w _ => w.wf
  | .arbCfgWrite w _ => w.wf
  | .tickDivWrite w _ => w.wf
  | .tickDividerApplied => true
  | .writeRegister w reg _ => w.wf && isPlainWrite reg
  | .writePairHigh w reg _ => w.wf && isPairHigh reg
  | .startFieldMismatch ones _ => decide (Config.preambleOnes ≤ ones)
  | .tick _ => true

end Sys2Proof
end

