-- ==== Sys2Proof/Safety.lean ====
section
/-! DEFINITION. What a well-kept part is: the conditions the manual gives for the state as a whole, each with its rule, and
the words in which the statements speak of management frames. -/

namespace Sys2Proof

/-- A whole WRITE frame with the right parity bit, after a full preamble (R155, R159). -/
abbrev WriteLine.good (w : WriteLine) : Prop := w.wf = true ∧ w.badParity = false

end Sys2Proof

namespace Sys2Proof.Machine

/-! ### Conditions on the state -/

/-- R117: for each lane the partner credit count, the occupancy and the withheld count sum to 8. -/
abbrev State.creditsKept (s : State) : Prop :=
  s.sp.rcred + s.sp.rlane.length + s.sp.rheld = 8 ∧ s.sp.wcred + s.sp.wlane.length + s.sp.wheld = 8

/-- R140: the memory credits and the ISSUED entries sum to 16. -/
abbrev State.memCreditsKept (s : State) : Prop := s.mp.credits + s.mp.queue.countP MemEntry.issued = 16

/-- R146: no weight is 0. -/
abbrev Weights.positive (w : Weights) : Prop := w.live ≠ 0 ∧ w.drain ≠ 0 ∧ w.copier ≠ 0

/-- R40, R109, R110, R146, R192: the configuration registers hold values their rules allow, and so do the weights and the
divider in force. -/
abbrev State.configKept (s : State) : Prop :=
  (1 ≤ s.jrn.lwm.toNat ∧ s.jrn.lwm.toNat < s.jrn.hwm.toNat ∧ s.jrn.hwm.toNat ≤ 2048) ∧ s.lnk.ackTmo ≠ 0 ∧
    (1 ≤ s.lnk.retryLim.toNat ∧ s.lnk.retryLim.toNat ≤ 15) ∧ s.mp.cfg.positive ∧ s.mp.cur.positive ∧
    s.mgmt.tickDiv ≠ 0 ∧ s.mgmt.tickLen ≠ 0

/-- R58, R59: the table has eight descriptors, and each map offset is the sum of the sizes of the enabled windows below. -/
abbrev State.tableKept (s : State) : Prop :=
  s.win.table.length = 8 ∧
    ∀ i, ∀ w, s.win.table[i]? = some w →
      w.mapOffset = (((s.win.table.take i).filter fun v => decide (v.kind ≠ .off)).map Window.size).sum

/-- R58, R62, R63: an OFF window holds base, size and fill byte 0; an enabled one lies on a granule boundary, has 1 to 16384
granules and ends within the address space; an IMAGE window has fill byte 0 and lies within the maps; no two enabled windows
share a byte, and the IMAGE windows together have at most 16384 granules. -/
abbrev State.windowsKept (s : State) : Prop :=
  (∀ w ∈ s.win.table,
    (w.kind = .off → w.base = 0 ∧ w.size = 0 ∧ w.fill = 0) ∧
    (w.kind ≠ .off → w.base.toNat % 4096 = 0 ∧ 1 ≤ w.size ∧ w.size ≤ 16384 ∧ w.base.toNat + 4096 * w.size ≤ 2 ^ 40) ∧
    (w.kind = .image → w.fill = 0 ∧ w.mapOffset + w.size ≤ 16384)) ∧
  (s.win.table.Pairwise fun v w => v.kind ≠ .off → w.kind ≠ .off →
    v.base.toNat + 4096 * v.size ≤ w.base.toNat ∨ w.base.toNat + 4096 * w.size ≤ v.base.toNat) ∧
  ((s.win.table.filter fun w => decide (w.kind = .image)).map Window.size).sum ≤ 16384

/-- R67 to R70: each map lists its marks in ascending order, and every mark is the position of a granule of an IMAGE window. -/
abbrev State.mapsKept (s : State) : Prop :=
  ∀ m ∈ [s.maps.coll, s.maps.img], m.Pairwise (· < ·) ∧
    ∀ p ∈ m, ∃ w ∈ s.win.table, w.kind = .image ∧ w.mapOffset ≤ p ∧ p < w.mapOffset + w.size

/-- R31, R1: no two entries have one block, there are at most 2048 of them, and none while the freeze state is IDLE. -/
abbrev State.journalKept (s : State) : Prop :=
  (s.jrn.entries.map JEntry.block).Nodup ∧ s.jrn.entries.length ≤ 2048 ∧ (s.frz.st = .idle → s.jrn.entries = [])

/-- R5, R26: the next epoch number and every number in the history are never 0, and the history has at most four records. -/
abbrev State.numbersKept (s : State) : Prop :=
  s.frz.nextEpoch ≠ 0 ∧ (∀ r ∈ s.frz.history, r.number ≠ 0) ∧ s.frz.history.length ≤ 4

/-- How the freeze state, the epoch state, the copier and the link controller go together. -/
structure State.PhasesKept (s : State) : Prop where
  /-- R2: FROZEN exactly while the current epoch is CAPTURING. -/
  frozen : s.frz.st = .frozen ↔ s.frz.capturing = true
  /-- R2: only the newest record can be active. -/
  older : ∀ r ∈ s.frz.history.tail, r.state.active = false
  /-- R92: the controller is IDLE exactly while no epoch is active. -/
  linkIdle : s.lnk.ctl = .idle ↔ s.frz.active = false
  /-- R92: the controller is SENDING exactly while the epoch is CAPTURING. -/
  linkSending : s.lnk.ctl = .sending ↔ s.frz.capturing = true
  /-- R74, R83: the copier is COPYING exactly while the epoch is CAPTURING. -/
  copying : s.cap.st = .copying ↔ s.frz.capturing = true
  /-- R84, R88: a CLOSING copier works for an active epoch. -/
  closing : s.cap.st = .closing → s.frz.active = true
  /-- R84, R92: END has been built before the controller awaits the verdict. -/
  awaiting : s.lnk.ctl = .awaitCommit → s.cap.st = .idle
  /-- R76, R112: every slot is FREE while no epoch is active. -/
  slotsFree : s.frz.active = false → s.lnk.slots = []
  /-- R84: END takes its slot in the event that makes the copier IDLE. -/
  endBuilt : ∀ q ∈ s.lnk.slots, q.frame.isEnd = true → s.cap.st = .idle
  /-- R81, R83: a slot is FILLING only during capture. -/
  filling : ∀ q ∈ s.lnk.slots, q.st = .filling → s.frz.capturing = true
  /-- R70: the image map holds no marks while no epoch is active. -/
  imageClear : s.frz.active = false → s.maps.img = []

/-- R94, R95: while an epoch is active the occupied slots, at most 16, hold consecutive sequence numbers from the
acknowledgement point on, A ≤ T ≤ N, every frame sent and not acknowledged has its slot, and a copier at work places its
next frame behind them. -/
structure State.WindowKept (s : State) : Prop where
  atMost : s.lnk.slots.length ≤ 16
  consecutive : s.lnk.slots.map Slot.seq = List.range' s.lnk.ackPt s.lnk.slots.length
  ackBelowTx : s.frz.active = true → s.lnk.ackPt ≤ s.lnk.txPt
  txBelowSent : s.frz.active = true → s.lnk.txPt ≤ s.lnk.sentCnt
  sentHeld : s.frz.active = true → s.lnk.sentCnt ≤ s.lnk.ackPt + s.lnk.slots.length
  nextPlace : s.cap.st ≠ .idle → s.cap.pos = s.lnk.ackPt + s.lnk.slots.length

/-- How a stall of the write lane goes with its claim, its head and the pending-freeze slot. -/
structure State.StallKept (s : State) : Prop where
  /-- R126, R127: a stalled write has one claim, and no other write has any. -/
  claims : s.sp.writes.countP WriteRec.claimed = if s.frz.stall = none then 0 else 1
  /-- R126, R127: the stalled write stands at the head of its lane. -/
  head : s.frz.stall ≠ none → s.sp.wlane ≠ []
  /-- R11, R12: a marker stall lasts exactly while a MARKER request waits. -/
  marker : s.frz.stall = some .marker ↔ ∃ k, s.frz.slot = some { source := .marker, kind := k }
  /-- R8, R9: FREEZE is busy exactly while a MGMT request waits. -/
  freezeWaits : (s.mgmt.busy = true ∧ s.mgmt.code = 1) ↔ ∃ k, s.frz.slot = some { source := .mgmt, kind := k }
  /-- R44, R45: an exhaustion stall ends when FROZEN is left. -/
  exhaustion : s.frz.stall = some .exhaustion → s.frz.st = .frozen

/-- R130: the outstanding read record a live-queue entry refers to. -/
def LiveEntry.readRef : LiveEntry → Option Nat
  | .read _ id => some id
  | .write _ _ _ _ => none

/-- R130: the outstanding write record a live-queue entry refers to. -/
def LiveEntry.writeRef : LiveEntry → Option Nat
  | .read _ _ => none
  | .write _ _ _ id => some id

/-- R139: the outstanding read record a memory-queue entry refers to. -/
def MemEntry.readRef (e : MemEntry) : Option Nat :=
  match e.access with
  | .liveRead id => some id
  | _ => none

/-- R139: the outstanding write record a memory-queue entry refers to. -/
def MemEntry.writeRef (e : MemEntry) : Option Nat :=
  match e.access with
  | .liveWrite id _ _ => some id
  | _ => none

/-- R139: the journal entry, by its block, a memory-queue entry refers to. -/
def MemEntry.drainRef (e : MemEntry) : Option Addr :=
  match e.access with
  | .drain _ _ => some e.block
  | _ => none

/-- R128 to R131, R139, R32: each unanswered read and write has exactly one entry on its way to memory, and so does each
ISSUED journal entry. -/
structure State.RefsKept (s : State) : Prop where
  readNumbers : (s.sp.reads.map ReadRec.id).Nodup
  writeNumbers : (s.sp.writes.map WriteRec.id).Nodup
  reads : (s.sp.live.filterMap LiveEntry.readRef ++ s.mp.queue.filterMap MemEntry.readRef).Perm
    (s.sp.reads.map ReadRec.id)
  writes : (s.sp.live.filterMap LiveEntry.writeRef ++ s.mp.queue.filterMap MemEntry.writeRef).Perm
    ((s.sp.writes.filter fun r => !r.claimed).map WriteRec.id)
  drains : (s.mp.queue.filterMap MemEntry.drainRef).Perm
    ((s.jrn.entries.filter fun e => decide (e.st = .issued)).map JEntry.block)

/-- What the lists, the queues and the slot of the part never exceed. -/
structure State.CapacityKept (s : State) : Prop where
  /-- R128. -/
  reads : s.sp.reads.length ≤ 32
  /-- R129. -/
  writes : s.sp.writes.length ≤ 16
  /-- R130: entries and claims. -/
  live : s.sp.live.length + s.sp.writes.countP WriteRec.claimed ≤ 16
  /-- R139. -/
  memory : s.mp.queue.length ≤ 32
  /-- R139: ISSUED entries form the front of the memory queue. -/
  issuedFirst : s.mp.queue.Pairwise fun a b => b.issued = true → a.issued = true
  /-- R140: no entry is WAITING while a credit is held; the model's reading of R140 beside R142 (log 31). -/
  sent : s.mp.credits ≠ 0 → ∀ e ∈ s.mp.queue, e.issued = true
  /-- R48: at most 8 drain writes are in flight. -/
  drains : s.jrn.entries.countP (fun e => decide (e.st = .issued)) ≤ 8
  /-- R32: entries are HELD only in FROZEN. -/
  held : ∀ e ∈ s.jrn.entries, e.st = .held → s.frz.st = .frozen
  /-- R4: no request waits where a freeze can take effect. -/
  waits : s.frz.slot ≠ none → ¬(s.frz.st = .idle ∧ s.frz.active = false ∧ s.lnk.up = true)
  /-- R8, R10, R11: no request waits in FROZEN. -/
  frozen : s.frz.st = .frozen → s.frz.slot = none

/-! ### Management frames -/

/-- R155: the frame receiver is in HUNT, so the next frame is seen from its beginning. -/
abbrev State.hunting (s : State) : Prop := s.mgmt.rx.phase = .hunt

/-- The state once a frame has ended and the receiver is back in HUNT with a count of 0 (R155). -/
def State.frameEnded (s : State) : State := { s with mgmt := { s.mgmt with rx := Receiver.idle } }

/-- The state once an access of register `reg` has been made and its frame has ended: `reg` is the last-accessed register
number (R160) and the wide-access latch holds `l` (R163). -/
def State.accessed (s : State) (reg : BitVec 9) (l : Latch) : State :=
  { s with mgmt := { s.mgmt with rx := Receiver.idle, lastReg := reg, latch := l } }

/-- R158: the data and the even parity bit driven at the end of a read frame with the given opcode and field. -/
def State.driven (s : State) (opcode : Nat) (field : BitVec 9) (v : Word16) : Output :=
  .mdaWord v (oddOnes (headerBits opcode s.mgmt.straps field ++ msbBits 16 v.toNat))

/-- R169: the part at the take of the command with the given code, whose WRITE to CMD has ended. -/
def State.taken (s : State) (code : Nat) : State :=
  { s with mgmt := { s.mgmt with rx := Receiver.idle, lastReg := 0, latch := .invalid, busy := true, rejected := false,
                                 result := .none, code := code } }

/-- R169, R170: the part once the command with the given code has been taken and has completed with a result. -/
def State.commanded (s : State) (code : Nat) (r : CmdResult) : State :=
  { s with
    mgmt := { s.mgmt with rx := Receiver.idle, lastReg := 0, latch := .invalid, busy := false, rejected := false,
                          result := r, code := code }
    alert := s.alert.raise .cmdDone }

/-- 10.4: the value a register number reads after power-on reset, MGMT_STAT apart. -/
def mapResetValue (n : Nat) : Word16 :=
  match n with
  | 0x004 => 0x0064
  | 0x012 => 0xFFFF
  | 0x013 => 0x0001
  | 0x021 => 0x000A
  | 0x022 => 0x03E8
  | 0x041 => 0x0010
  | 0x043 => 0x0700
  | 0x044 => 0x0400
  | 0x066 => 0x00C8
  | 0x067 => 0x0004
  | 0x068 => 0x0032
  | 0x070 => 0x8800
  | 0x076 => 0x0448
  | _ => 0

/-- The WRITE rows of the table of operations: the frame's line, the register number of 10.4 it names, and its data. -/
def writeRow : Instr → Option (WriteLine × BitVec 9 × Word16)
  | .freeze w => some (w, 0x000, 1)
  | .abort w => some (w, 0x000, 2)
  | .invalidateBaseline w => some (w, 0x000, 3)
  | .windowWrite w => some (w, 0x000, 4)
  | .windowRead w => some (w, 0x000, 5)
  | .historyRead w => some (w, 0x000, 6)
  | .clearCounters w => some (w, 0x000, 7)
  | .reset w => some (w, 0x000, 8)
  | .invalidCommandCode w code => some (w, 0x000, code)
  | .writePairLow w reg v => some (w, reg, v)
  | .alertStatTestWrite w v => some (w, 0x011, v)
  | .alertEnWrite w v => some (w, 0x015, v)
  | .alertDisWrite w v => some (w, 0x017, v)
  | .drnFaultInfoWrite w v => some (w, 0x045, v)
  | .jrnHwmWrite w v => some (w, 0x043, v)
  | .jrnLwmWrite w v => some (w, 0x044, v)
  | .jrnCfgWrite w v => some (w, 0x042, v)
  | .stallLimitWrite w v => some (w, 0x022, v)
  | .epochLimitWrite w v => some (w, 0x023, v)
  | .frzCfgWrite w v => some (w, 0x021, v)
  | .lnkAckTmoWrite w v => some (w, 0x066, v)
  | .lnkRetryLimWrite w v => some (w, 0x067, v)
  | .lnkPauseLimWrite w v => some (w, 0x068, v)
  | .arbCfgWrite w v => some (w, 0x076, v)
  | .tickDivWrite w v => some (w, 0x004, v)
  | .writeRegister w reg v => some (w, reg, v)
  | .writePairHigh w reg v => some (w, reg, v)
  | _ => none

/-- The READ and READ_NEXT rows of the table of operations: the frame's line, its opcode and register number field (10.2), and
the register it accesses (R158, R160). -/
def readRow (s : State) : Instr → Option (Line × Nat × BitVec 9 × BitVec 9)
  | .readPairLow l reg => some (l, 1, reg, reg)
  | .readPairHigh l reg => some (l, 1, reg, reg)
  | .counterRead l reg => some (l, 1, reg, reg)
  | .jrnPeakRead l => some (l, 1, 0x08E, 0x08E)
  | .alertStatRead l => some (l, 1, 0x010, 0x010)
  | .readNext l field => some (l, 3, field, s.mgmt.lastReg + 1)
  | _ => none

end Sys2Proof.Machine
end

