-- ==== Sys2Proof/Certificates/Slice0/Obligations.lean ====
section
/-! DEFINITION. The statements for the provers. Each is about every state; where one could fail only in states that no run
reaches, an invariant of Safety.lean, itself a statement, stands as a premise. An exact next state says at once what a
command does and what it leaves alone. -/

section

open Sys2Proof Sys2Proof.Machine

/-! ### The queue of commands, and resets -/

/-- A step runs the command at the front of the queue with the queue's rest; on an empty queue the block idles, which is the
model's choice (log 6). -/
def Obligations.StepRunsTheFrontCommand : Prop :=
  (∀ (s : State) (c : Instr) (rest : List Instr), s.pending = c :: rest → step s = exec c { s with pending := rest }) ∧
    ∀ s : State, s.pending = [] → step s = .next s

/-- 10.4: after POWER_ON_RESET every register number reads the map's reset value, and MGMT_STAT the straps. -/
def Obligations.PowerOnResetReadsTheMapsValues : Prop :=
  ∀ (s : State) (straps : BitVec 4) (high : Bool), ∃ t, exec (.powerOnReset straps high) s = .next t ∧
    ∀ n : BitVec 9, (t.readAccess n.toNat).1 = if n = 3 then straps.setWidth 16 else mapResetValue n.toNat

/-- R27. -/
def Obligations.PowerOnResetOfTheFreezeController : Prop :=
  ∀ (s : State) (straps : BitVec 4) (high : Bool), ∃ t, exec (.powerOnReset straps high) s = .next t ∧
    t.frz.st = .idle ∧ t.frz.slot = none ∧ t.frz.history = [] ∧ t.frz.active = false ∧ t.frz.nextEpoch = 1 ∧
    t.frz.baseline = false ∧ t.frz.stall = none ∧ t.frz.stallTimer = 0 ∧ t.frz.epochTimer = 0 ∧
    t.frz.lineKind = .delta ∧ t.frz.markerKind = .delta ∧ t.frz.stallLimit = 1000 ∧ t.frz.epochLimit = 0 ∧
    t.jrn.entries = []

/-- The end states of the two resets (R10, R27, R57, R73, R87, R114, R138, R153, R154, R161, R162, R174, R175, R183, R190).
The model's choices in it: how the level of FREEZE_REQ as each reset ends is given (log 5), what is kept of the commands
waiting, of the outputs so far and of the rest (log 20, 26), the values of State.reset that the manual does not give (log
21), and in the outputs the cut of a frame before the reset of the memory port and the read lane's credit returns before the
write lane's (log 22). -/
def Obligations.PowerOnAndControlledResetEndStates : Prop :=
  (∀ (s : State) (straps : BitVec 4) (high : Bool), exec (.powerOnReset straps high) s = .next
    { State.reset with
      mgmt := { Mgmt.reset with straps := straps }
      frz := { Frz.reset with lineSeenLow := !high }
      pending := s.pending
      out := s.out ++ (if s.lnk.tx.isSome then [.frameCut] else []) ++ [.memReset] }) ∧
  (∀ s : State, s.resetting = true → s.frz.st = .idle → s.sp.rlane = [] → s.sp.wlane = [] → s.sp.reads = [] →
    s.sp.writes = [] → s.sp.live = [] → s.mp.queue = [] → exec .controlledResetFinalStep s = .next
      { State.reset with
        frz := { Frz.reset with lineSeenLow := s.frz.lineSeenLow }
        lnk := { Lnk.reset with up := s.lnk.up, tx := s.lnk.tx }
        mgmt := { Mgmt.reset with rx := s.mgmt.rx, lastReg := s.mgmt.lastReg, straps := s.mgmt.straps }
        pending := s.pending
        out := s.out ++ (List.replicate s.sp.rheld (.creditReturn .read) ++
          List.replicate s.sp.wheld (.creditReturn .write)) }) ∧
  ∀ s : State, ¬(s.resetting = true ∧ s.frz.st = .idle ∧ s.sp.rlane = [] ∧ s.sp.wlane = [] ∧ s.sp.reads = [] ∧
    s.sp.writes = [] ∧ s.sp.live = [] ∧ s.mp.queue = []) → exec .controlledResetFinalStep s = .next s

/-- R29, R135. -/
def Obligations.SportResetClearsThePortOnly : Prop :=
  ∀ s : State, exec .sportReset s = .next
    { s with
      sp := { s.sp with
        rlane := []
        wlane := []
        rcred := if s.resetting then 0 else 8
        wcred := if s.resetting then 0 else 8
        rheld := if s.resetting then 8 else 0
        wheld := if s.resetting then 8 else 0
        reads := s.sp.reads.map fun r => { r with silent := true }
        writes := (s.sp.writes.filter fun r => !r.claimed).map fun r => { r with silent := true } }
      frz := { s.frz with
        slot := (match s.frz.slot with | some ⟨.marker, _⟩ => none | q => q)
        stall := none }
      out := s.out ++ [if s.resetting then .resetAck 0 0 else .resetAck 8 8] }

/-! ### Invariants -/

/-- R117, R140; R40, R109, R110, R146, R192; R58, R59, R62 for the window table; R67 to R70 for the granule maps; R31, R34, R1
for the journal; R5, R26 for the numbers. -/
def Obligations.EveryStepKeepsCreditsTablesAndNumbers : Prop :=
  ∀ s t : State, step s = .next t →
    (s.creditsKept → t.creditsKept) ∧ (s.memCreditsKept → t.memCreditsKept) ∧ (s.configKept → t.configKept) ∧
      (s.tableKept → t.tableKept) ∧ (s.windowsKept → t.windowsKept) ∧ (s.mapsKept → t.mapsKept) ∧
      (s.journalKept → t.journalKept) ∧ (s.numbersKept → t.numbersKept)

/-- R2, R70, R74, R92. -/
def Obligations.EveryStepKeepsThePhasesTogether : Prop :=
  ∀ s t : State, s.configKept → s.PhasesKept → step s = .next t → t.PhasesKept

/-- R94, R95. -/
def Obligations.EveryStepKeepsTheRetransmitWindow : Prop :=
  ∀ s t : State, s.configKept → s.PhasesKept → s.WindowKept → step s = .next t → t.WindowKept

/-- R126 to R131, R139. -/
def Obligations.EveryStepKeepsStallsAndReferences : Prop :=
  ∀ s t : State, s.journalKept → s.StallKept → s.RefsKept → step s = .next t → t.StallKept ∧ t.RefsKept

/-- R128, R129, R130, R139, R140, R48, R32, R4. The clause `sent` of `CapacityKept`, that no entry waits while a credit is held,
is the model's reading of R140 beside R142 (log 31). -/
def Obligations.EveryStepKeepsTheCapacities : Prop :=
  ∀ s t : State, s.configKept → s.journalKept → s.PhasesKept → s.StallKept → s.CapacityKept → step s = .next t →
    t.CapacityKept

/-- The invariants hold right after reset. -/
def Obligations.ResetMeetsEveryInvariant : Prop :=
  State.reset.creditsKept ∧ State.reset.memCreditsKept ∧ State.reset.configKept ∧ State.reset.tableKept ∧
    State.reset.windowsKept ∧ State.reset.mapsKept ∧ State.reset.journalKept ∧ State.reset.numbersKept ∧ State.reset.PhasesKept ∧
    State.reset.WindowKept ∧ State.reset.StallKept ∧ State.reset.RefsKept ∧ State.reset.CapacityKept

/-! ### Commands written to CMD -/

/-- R8: the four outcomes of a FREEZE taken with the command interface free; R170: what the completion of a command does. -/
def Obligations.FreezeCommandOutcomes : Prop :=
  (∀ (s : State) (r : CmdResult), s.completeCommand r =
    { s with mgmt := { s.mgmt with busy := false, result := r }, alert := s.alert.raise .cmdDone }) ∧
  ∀ (s : State) (w : WriteLine), w.good → s.hunting → s.mgmt.busy = false →
    (s.mgmt.arg ≠ 1 → s.mgmt.arg ≠ 2 → exec (.freeze w) s = .next (s.commanded 1 .refusedArgument)) ∧
    ∀ k : Kind, s.mgmt.arg = (match k with | .full => 1 | .delta => 2) →
      (s.frz.st = .idle → s.frz.active = false → s.lnk.up = true →
        exec (.freeze w) s = .next (((s.taken 1).freezePoint .mgmt k).completeCommand .ok)) ∧
      (s.frz.st = .frozen → exec (.freeze w) s = .next (s.commanded 1 .refusedState)) ∧
      (¬(s.frz.st = .idle ∧ s.frz.active = false ∧ s.lnk.up = true) → s.frz.slot.isSome = true →
        exec (.freeze w) s = .next (s.commanded 1 .refusedState)) ∧
      (¬(s.frz.st = .idle ∧ s.frz.active = false ∧ s.lnk.up = true) → s.frz.st ≠ .frozen → s.frz.slot = none →
        exec (.freeze w) s = .next
          { s.taken 1 with frz := { s.frz with slot := some { source := .mgmt, kind := k } } })

/-- R9, R169: a WRITE to CMD while a command is busy, other than ABORT or RESET over a waiting FREEZE, sets REJECTED. -/
def Obligations.CommandsAreRejectedWhileBusy : Prop :=
  ∀ (s : State) (c : Instr) (w : WriteLine) (v : Word16), writeRow c = some (w, 0, v) → w.good → s.hunting →
    s.mgmt.busy = true → ¬(s.mgmt.code = 1 ∧ (v = 2 ∨ v = 8)) →
    exec c s = .next
      { s with mgmt := { s.mgmt with rx := Receiver.idle, lastReg := 0, latch := .invalid, rejected := true } }

/-- R9, R23, R28, R173: ABORT and RESET. With the command interface free a request in the slot is cancelled (a MARKER request's
write is taken as a plain write), then an active epoch is broken; ABORT completes OK, RESET stays busy and begins to withhold
credits and to refuse requests. Over a waiting FREEZE its request leaves the slot and it completes CANCELLED with CMD_DONE
first. -/
def Obligations.AbortAndResetCommands : Prop :=
  ∀ (s : State) (w : WriteLine), w.good → s.hunting →
    (s.mgmt.busy = false →
      let cancelled := fun t : State =>
        let emptied : State := { t with frz := { t.frz with slot := none } }
        match s.frz.slot with
        | none => t
        | some ⟨.marker, _⟩ => emptied.endStallWith State.takePlain
        | some _ => emptied
      exec (.abort w) s = .next (((cancelled (s.taken 2)).breakEpoch .abort).completeCommand .ok) ∧
        exec (.reset w) s = .next { (cancelled (s.taken 8)).breakEpoch .reset with resetting := true }) ∧
    (s.mgmt.busy = true → s.mgmt.code = 1 →
      let cancelled := fun code : Nat =>
        ({ s.taken code with frz := { s.frz with slot := none }, alert := s.alert.raise .cmdDone } : State)
      exec (.abort w) s = .next (((cancelled 2).breakEpoch .abort).completeCommand .ok) ∧
        exec (.reset w) s = .next { (cancelled 8).breakEpoch .reset with resetting := true })

/-- R24, R26, R169, R171: INVALIDATE_BASELINE, HISTORY_READ and a code outside 1 to 8, each complete in its event. -/
def Obligations.BaselineHistoryAndUnknownCommands : Prop :=
  let kind := fun k : Kind => match k with | .full => 1 | .delta => 2
  ∀ (s : State) (w : WriteLine), w.good → s.hunting → s.mgmt.busy = false →
    exec (.invalidateBaseline w) s = .next { s.commanded 3 .ok with frz := { s.frz with baseline := false } } ∧
    (3 < s.mgmt.arg.toNat → exec (.historyRead w) s = .next (s.commanded 6 .refusedArgument)) ∧
    (∀ r, s.mgmt.arg.toNat ≤ 3 → s.frz.history[s.mgmt.arg.toNat]? = some r →
      exec (.historyRead w) s = .next
        { s.commanded 6 .ok with
          mgmt := { (s.commanded 6 .ok).mgmt with
            hist := {
              epoch := r.number
              info := BitVec.ofNat 16
                ((match r.source with | .mgmt => 1 | .line => 2 | .marker => 3) + 4 * kind r.kindRequested +
                  16 * kind r.kindPerformed +
                  64 * (match r.state with | .capturing => 1 | .sending => 2 | .committed => 3 | .broken => 4) +
                  512 * (match r.cause with
                    | none => 0
                    | some .abort => 1 | some .epochLimit => 2 | some .journalFull => 3 | some .stallLimit => 4
                    | some .memRead => 5 | some .linkRetry => 6 | some .linkLost => 7 | some .pauseLimit => 8
                    | some .linkProtocol => 9 | some .rejected => 10 | some .reset => 11) +
                  8192 * (if r.digest.isSome then 1 else 0))
              gran := BitVec.ofNat 16 r.granules
              sent := BitVec.ofNat 32 r.framesSent
              resent := BitVec.ofNat 32 r.framesResent
              fdur := BitVec.ofNat 32 r.duration
              digest := r.digest.getD 0 } } }) ∧
    (s.mgmt.arg.toNat ≤ 3 → s.frz.history[s.mgmt.arg.toNat]? = none →
      exec (.historyRead w) s = .next
        { s.commanded 6 .ok with
          mgmt := { (s.commanded 6 .ok).mgmt with
            hist := { epoch := 0, info := 0, gran := 0, sent := 0, resent := 0, fdur := 0, digest := 0 } } }) ∧
    ∀ code : Word16, code.toNat = 0 ∨ 8 < code.toNat →
      exec (.invalidCommandCode w code) s = .next (s.commanded 15 .refusedArgument)

/-- R61, R63: the refusals of WINDOW_WRITE in their order, and its effects; R59, R60, R62, R63: which staged descriptors it
stores at index `i`, and the table that results. -/
def Obligations.WindowWriteCommandOutcomes : Prop :=
  (∀ (s : State) (w : WriteLine), w.good → s.hunting → s.mgmt.busy = false →
    (7 < s.mgmt.arg.toNat → exec (.windowWrite w) s = .next (s.commanded 4 .refusedArgument)) ∧
    (s.mgmt.arg.toNat ≤ 7 → s.frz.active = true ∨ s.frz.st ≠ .idle →
      exec (.windowWrite w) s = .next (s.commanded 4 .refusedState)) ∧
    (s.mgmt.arg.toNat ≤ 7 → s.frz.active = false → s.frz.st = .idle →
      (s.win.replaced s.mgmt.arg.toNat = none → exec (.windowWrite w) s = .next (s.commanded 4 .refusedArgument)) ∧
      ∀ table, s.win.replaced s.mgmt.arg.toNat = some table →
        exec (.windowWrite w) s = .next
          { s.commanded 4 .ok with
            win := { s.win with table := table }
            maps := { coll := [], img := [] }
            frz := { s.frz with baseline := false } })) ∧
  ∀ (v : Win) (i : Nat) (table : List Window), v.table.length = 8 → i < 8 →
    let d : Window :=
      if v.stgKind = 0 then { kind := .off, base := 0, size := 0, fill := 0, mapOffset := 0 }
      else
        { kind := if v.stgKind = 1 then .image else .fill
          base := BitVec.ofNat 40 (256 * v.stgBase.toNat)
          size := v.stgSize.toNat
          fill := if v.stgKind = 1 then 0 else v.stgFill
          mapOffset := 0 }
    let placed := v.table.set i d
    v.replaced i = some table ↔
      v.stgKind ≠ 3 ∧
      (table = placed.mapIdx fun j x =>
        { x with mapOffset := (((placed.take j).filter fun y => decide (y.kind ≠ .off)).map Window.size).sum }) ∧
      (v.stgKind ≠ 0 → 256 * v.stgBase.toNat % 4096 = 0 ∧ 1 ≤ v.stgSize.toNat ∧ v.stgSize.toNat ≤ 16384 ∧
        256 * v.stgBase.toNat + 4096 * v.stgSize.toNat ≤ 2 ^ 40) ∧
      (∀ (a b : Nat) (x y : Window), a < b → table[a]? = some x → table[b]? = some y → x.kind ≠ .off → y.kind ≠ .off →
        x.base.toNat + 4096 * x.size ≤ y.base.toNat ∨ y.base.toNat + 4096 * y.size ≤ x.base.toNat) ∧
      ((table.filter fun x => decide (x.kind = .image)).map Window.size).sum ≤ 16384 ∧
      ∀ x ∈ table, x.kind = .image → x.mapOffset + x.size ≤ 16384

/-- R64. -/
def Obligations.WindowReadCopiesTheDescriptor : Prop :=
  ∀ (s : State) (w : WriteLine), w.good → s.hunting → s.mgmt.busy = false →
    (7 < s.mgmt.arg.toNat → exec (.windowRead w) s = .next (s.commanded 5 .refusedArgument)) ∧
    ∀ d, s.mgmt.arg.toNat ≤ 7 → s.win.table[s.mgmt.arg.toNat]? = some d →
      exec (.windowRead w) s = .next
        { s.commanded 5 .ok with
          win := { s.win with
            stgBase := BitVec.ofNat 32 (d.base.toNat / 256)
            stgSize := BitVec.ofNat 16 d.size
            stgKind := (match d.kind with | .off => 0 | .image => 1 | .fill => 2)
            stgFill := d.fill
            stgMapoff := BitVec.ofNat 32 d.mapOffset } }

/-- R172. -/
def Obligations.ClearCountersClearsEveryCounter : Prop :=
  ∀ (s : State) (w : WriteLine), w.good → s.hunting → s.mgmt.busy = false →
    ∃ stats : Stats, exec (.clearCounters w) s = .next { s.commanded 7 .ok with stats := stats } ∧
      ∀ c : Counter, stats.get c = if c = .jrnPeak then s.jrn.entries.length else 0

/-! ### The freeze controller -/

/-- R6: the event of a freeze point, whole, with the copier and the link controller as R74, R77, R79, R85, R88 and R93 set
them: OPEN and the FILL frames next in the plan, at most 15, in the slots. -/
def Obligations.FreezePointEffects : Prop :=
  ∀ (s : State) (src : Source) (k : Kind),
    let performed : Kind := if k = .delta ∧ s.frz.baseline = false then .full else k
    let plan := framePlan performed s.maps.coll s.win.table
    let granules := granuleCount performed s.maps.coll s.win.table
    let leading := (((plan.drop 1).takeWhile fun p => match p with | .fill _ => true | _ => false).take 15).filterMap
      fun p => match p with | .fill i => some i | _ => none
    s.beginEpoch src k =
      { s with
        frz := { s.frz with
          st := .frozen
          nextEpoch := if s.frz.nextEpoch = 65535 then 1 else s.frz.nextEpoch + 1
          history := (({ number := s.frz.nextEpoch, source := src, kindRequested := k, kindPerformed := performed,
                         state := .capturing, cause := none, granules := 0, framesSent := 0, framesResent := 0,
                         duration := 0, digest := none } : EpochRecord) :: s.frz.history).take 4
          epochTimer := 0 }
        maps := { coll := [], img := s.maps.coll }
        cap := { s.cap with
          st := .copying, plan := plan, pos := 1 + leading.length, fence := s.sp.live.length, digest := 0xFFFFFFFF,
          dataBuilt := 0, fillBuilt := leading.length, remain := granules }
        lnk := { s.lnk with
          ctl := .sending
          slots :=
            { st := .ready, seq := 0, issued := 0,
              frame := .opening s.frz.nextEpoch performed (descriptorsFrom 0 s.win.table) granules } ::
            leading.mapIdx fun j i =>
              { st := .ready, seq := 1 + j, issued := 0,
                frame := .fill s.frz.nextEpoch (1 + j) i (s.win.table.getD i Window.off).fill
                  (s.win.table.getD i Window.off).size }
          ackPt := 0, sentCnt := 0, txPt := 0, curEpoch := s.frz.nextEpoch, retry := 0, ackTimer := 0, contPause := 0 }
        alert := s.alert.raise .epochBegun }

/-- R5. -/
def Obligations.EpochNumbersRunFromOneAndSkipZero : Prop :=
  (∀ (s : State) (src : Source) (k : Kind),
    ((s.beginEpoch src k).frz.history.head?.map EpochRecord.number) = some s.frz.nextEpoch ∧
    (s.frz.nextEpoch = 65535 → (s.beginEpoch src k).frz.nextEpoch = 1) ∧
    (s.frz.nextEpoch ≠ 65535 → (s.beginEpoch src k).frz.nextEpoch.toNat = s.frz.nextEpoch.toNat + 1) ∧
    (s.beginEpoch src k).frz.nextEpoch ≠ 0) ∧
  (∀ (s : State) (c : BreakCause), (s.breakNow c).frz.nextEpoch = s.frz.nextEpoch) ∧
  (∀ (s t : State) (straps : BitVec 4) (high : Bool), exec (.powerOnReset straps high) s = .next t → t.frz.nextEpoch = 1) ∧
  (∀ s : State, s.resetting = true → s.frz.st = .idle → s.sp.rlane = [] → s.sp.wlane = [] → s.sp.reads = [] →
    s.sp.writes = [] → s.sp.live = [] → s.mp.queue = [] →
    ∃ t, exec .controlledResetFinalStep s = .next t ∧ t.frz.nextEpoch = 1) ∧
  ∀ s t : State, exec .sportReset s = .next t → t.frz.nextEpoch = s.frz.nextEpoch

/-- R83, R16: with no DATA frame in the plan capture is complete within the freeze-point event, OPEN and every FILL frame in
slots. -/
def Obligations.FreezePointWithNothingToCapture : Prop :=
  ∀ (s : State) (src : Source) (k : Kind),
    let t := s.freezePoint src k
    ((s.beginEpoch src k).cap.plan.any PlanFrame.isData = true → t = s.beginEpoch src k) ∧
    ((s.beginEpoch src k).cap.plan.any PlanFrame.isData = false → s.win.table.length = 8 → s.jrn.entries = [] →
      s.frz.stall ≠ some .exhaustion →
      t = (s.beginEpoch src k).captureComplete ∧ t.frz.st = .idle ∧ (t.frz.history.head?.map fun r => (r.state, r.duration)) = some (.sending, 0) ∧
      t.cap.st = .closing ∧ t.lnk.ctl = .tail ∧ t.lnk.slots.length + 1 = t.cap.plan.length ∧
      t.alert = (s.alert.raise .epochBegun).raise .captureDone ∧ t.jrn.entries = [] ∧ t.sp = s.sp ∧ t.mp = s.mp ∧
      t.out = s.out)

/-- R10, R28: the outcomes of an edge of FREEZE_REQ, and a high sample after a high one, which is no edge. That the command is a
sample of the line is the model's (log 5). -/
def Obligations.FreezeReqEdgeOutcomes : Prop :=
  ∀ s : State,
    (s.frz.lineSeenLow = false → exec .freezeReqEdge s = .next s) ∧
    (s.frz.lineSeenLow = true →
      let u : State := { s with frz := { s.frz with lineSeenLow := false } }
      let refused : State :=
        { u with alert := s.alert.raise .freezeRefused, stats := s.stats.count .freezesRefused }
      (s.resetting = true → exec .freezeReqEdge s = .next refused) ∧
      (s.resetting = false → s.frz.st = .idle → s.frz.active = false → s.lnk.up = true →
        exec .freezeReqEdge s = .next (u.freezePoint .line s.frz.lineKind)) ∧
      (s.frz.st = .frozen → exec .freezeReqEdge s = .next refused) ∧
      (s.resetting = false → ¬(s.frz.st = .idle ∧ s.frz.active = false ∧ s.lnk.up = true) → s.frz.slot.isSome = true →
        exec .freezeReqEdge s = .next refused) ∧
      (s.resetting = false → ¬(s.frz.st = .idle ∧ s.frz.active = false ∧ s.lnk.up = true) → s.frz.st ≠ .frozen →
        s.frz.slot = none →
        exec .freezeReqEdge s = .next
          { u with frz := { u.frz with slot := some { source := .line, kind := s.frz.lineKind } } }))

/-- R4: the evaluation of the pending-freeze slot. -/
def Obligations.EvaluationOfAWaitingRequest : Prop :=
  ∀ s : State,
    (s.frz.slot = none → s.evaluate = s) ∧
    (¬(s.frz.st = .idle ∧ s.frz.active = false ∧ s.lnk.up = true) → s.evaluate = s) ∧
    (s.frz.st = .idle → s.frz.active = false → s.lnk.up = true → ∀ k : Kind,
      let u : State := { s with frz := { s.frz with slot := none } }
      (s.frz.slot = some { source := .mgmt, kind := k } →
        s.evaluate = (u.freezePoint .mgmt k).completeCommand .ok) ∧
      (s.frz.slot = some { source := .line, kind := k } → s.evaluate = u.freezePoint .line k) ∧
      (s.frz.slot = some { source := .marker, kind := k } → ∀ w rest, s.sp.wlane = w :: rest →
        s.evaluate = (u.takeStraight w).freezePoint .marker k))

/-- R19, R20, R21, R22, R70, R86, R112: the effects of a break of an active epoch, then the evaluation of the slot; R2, R26: when
an epoch is active. That a copier already IDLE is left as it is, a fence count above 0 included, is the model's reading of R79
beside R86 (log 30). -/
def Obligations.BreakEffects : Prop :=
  (∀ z : Frz,
    (z.active = true ↔ ∃ r older, z.history = r :: older ∧ r.state.active = true) ∧
    (z.capturing = true ↔ ∃ r older, z.history = r :: older ∧ r.state = .capturing)) ∧
  (∀ e : EpochState, e.active = true ↔ e = .capturing ∨ e = .sending) ∧
  (∀ (s : State) (c : BreakCause), s.frz.active = false → s.breakEpoch c = s) ∧
  (∀ (s : State) (c : BreakCause), s.frz.active = true → s.breakEpoch c = (s.breakNow c).evaluate) ∧
  (∀ (s : State) (c : BreakCause) (r : EpochRecord) (older : List EpochRecord),
    s.frz.history = r :: older → r.state.active = true →
    let frozen := decide (r.state = .capturing)
    let u : State :=
      { s with
        frz := { s.frz with
          st := if frozen then (if s.jrn.entries = [] then .idle else .draining) else s.frz.st
          history :=
            { r with state := .broken, cause := some c,
                     duration := if frozen then min s.frz.epochTimer (2 ^ 32 - 1) else r.duration } :: older }
        jrn := { s.jrn with
          entries := if frozen then s.jrn.entries.map fun e => if e.st = .held then { e with st := .pending } else e
            else s.jrn.entries }
        maps := { coll := unionMarks s.maps.img s.maps.coll, img := [] }
        cap := if s.cap.st = .idle then s.cap
          else { s.cap with st := .idle, plan := [], pos := 0, fence := 0, stale := s.cap.reads }
        lnk := { s.lnk with
          ctl := .idle, slots := [], retry := 0, ackTimer := 0, contPause := 0, prevEpoch := r.number
          abandon := if s.lnk.up then some (r.number, c) else s.lnk.abandon }
        alert := s.alert.raise .epochBroken
        stats := s.stats.count .epochsBroken }
    (¬(frozen = true ∧ s.frz.stall = some .exhaustion) → s.breakNow c = u) ∧
    (frozen = true → s.frz.stall = some .exhaustion → ∀ w rest, s.sp.wlane = w :: rest →
      s.breakNow c = u.takeStraight w)) ∧
  ∀ (p : Nat) (a b : List Nat), p ∈ unionMarks a b ↔ p ∈ a ∨ p ∈ b

/-- R16. -/
def Obligations.CaptureCompleteEffects : Prop :=
  ∀ (s : State) (r : EpochRecord) (older : List EpochRecord), s.frz.history = r :: older → r.state = .capturing →
    let u : State :=
      { s with
        frz := { s.frz with
          st := if s.jrn.entries = [] then .idle else .draining
          history := { r with state := .sending, duration := min s.frz.epochTimer (2 ^ 32 - 1) } :: older }
        jrn := { s.jrn with entries := s.jrn.entries.map fun e => if e.st = .held then { e with st := .pending } else e }
        cap := { s.cap with st := .closing }
        lnk := { s.lnk with ctl := .tail }
        alert := s.alert.raise .captureDone }
    (s.frz.stall ≠ some .exhaustion → s.captureComplete = u) ∧
    (s.frz.stall = some .exhaustion → ∀ w rest, s.sp.wlane = w :: rest → s.captureComplete = u.takeStraight w)

/-- R12, R14, R15, R13, R192: the expiries of the stall timer and the epoch timer, the writes of their limits, which apply at
once, and FRZ_CFG. -/
def Obligations.StallAndEpochTimers : Prop :=
  let stallDue := fun t : State => t.frz.stall ≠ none ∧ t.frz.stallLimit ≠ 0 ∧ t.frz.stallLimit.toNat ≤ t.frz.stallTimer
  let epochDue := fun t : State =>
    t.frz.capturing = true ∧ t.frz.epochLimit ≠ 0 ∧ 1000 * t.frz.epochLimit.toNat ≤ t.frz.epochTimer
  let markerEnd := fun t : State =>
    let u := State.endStallWith { t with frz := { t.frz with slot := none } } State.takePlain
    ({ u with alert := u.alert.raise .markerRefused, stats := u.stats.count .markersRefused } : State)
  (∀ s : State,
    (¬stallDue s → exec .stallTimerExpiry s = .next s) ∧
    (stallDue s → s.frz.stall = some .marker → exec .stallTimerExpiry s = .next (markerEnd s)) ∧
    (stallDue s → s.frz.stall = some .exhaustion → exec .stallTimerExpiry s = .next (s.breakEpoch .stallLimit)) ∧
    (¬epochDue s → exec .epochTimerExpiry s = .next s) ∧
    (epochDue s → exec .epochTimerExpiry s = .next (s.breakEpoch .epochLimit))) ∧
  ∀ (s : State) (w : WriteLine) (v : Word16), w.good → s.hunting →
    let a := s.accessed 0x022 .invalid
    let b := s.accessed 0x023 .invalid
    let t : State := { a with frz := { s.frz with stallLimit := v } }
    let u : State := { b with frz := { s.frz with epochLimit := v } }
    (¬stallDue t → exec (.stallLimitWrite w v) s = .next t) ∧
    (stallDue t → s.frz.stall = some .marker → exec (.stallLimitWrite w v) s = .next (markerEnd t)) ∧
    (stallDue t → s.frz.stall = some .exhaustion → exec (.stallLimitWrite w v) s = .next (t.breakEpoch .stallLimit)) ∧
    (¬epochDue u → exec (.epochLimitWrite w v) s = .next u) ∧
    (epochDue u → exec (.epochLimitWrite w v) s = .next (u.breakEpoch .epochLimit)) ∧
    (v.toNat % 4 = 0 ∨ v.toNat % 4 = 3 ∨ v.toNat / 4 % 4 = 0 ∨ v.toNat / 4 % 4 = 3 →
      exec (.frzCfgWrite w v) s = .next (s.accessed 0x021 .invalid)) ∧
    ∀ k m : Kind, v.toNat % 4 = (match k with | .full => 1 | .delta => 2) →
      v.toNat / 4 % 4 = (match m with | .full => 1 | .delta => 2) →
      exec (.frzCfgWrite w v) s = .next
        { s.accessed 0x021 .invalid with frz := { s.frz with lineKind := k, markerKind := m } }

/-! ### The system port -/

/-- R118, and the arrival with a credit of R117. -/
def Obligations.RequestsArriveOrOverrun : Prop :=
  ∀ s : State,
    let overrun : State := { s with alert := s.alert.raise .portProtocol, stats := s.stats.count .creditOverruns }
    (∀ r : ReadReq,
      (s.sp.rcred = 0 → exec (.requestArrives (.read r)) s = .next overrun) ∧
      (s.sp.rcred ≠ 0 → exec (.requestArrives (.read r)) s = .next
        { s with sp := { s.sp with rlane := s.sp.rlane ++ [r], rcred := s.sp.rcred - 1 } })) ∧
    ∀ w : WriteReq,
      (s.sp.wcred = 0 → exec (.requestArrives (.write w)) s = .next overrun) ∧
      (s.sp.wcred ≠ 0 → exec (.requestArrives (.write w)) s = .next
        { s with sp := { s.sp with wlane := s.sp.wlane ++ [w], wcred := s.sp.wcred - 1 } })

/-- R119, R121, R123, R124, R38: the READ at the head of its lane is taken in one of four ways, or waits; R121, R126, R136: which
records hold their pair. The response before the credit return in the outputs is the model's choice (log 22). -/
def Obligations.TakeReadOutcomes : Prop :=
  (∀ (p : Sp) (i : BitVec 4) (t : BitVec 6), p.pairHeld i t = true ↔
    (∃ q ∈ p.reads, q.silent = false ∧ q.initiator = i ∧ q.tag = t) ∨
      ∃ q ∈ p.writes, q.silent = false ∧ q.initiator = i ∧ q.tag = t) ∧
  (∀ s : State, s.sp.rlane = [] → exec .takeRead s = .next s) ∧
  ∀ (s : State) (r : ReadReq) (rest : List ReadReq), s.sp.rlane = r :: rest →
    let bad := r.len.toNat = 0 ∨ 32 < r.len.toNat ∨ 32 < r.addr.toNat % 32 + r.len.toNat
    let popped : Sp :=
      { s.sp with
        rlane := rest
        rcred := s.sp.rcred + if s.resetting then 0 else 1
        rheld := s.sp.rheld + if s.resetting then 1 else 0 }
    let credit : List Output := if s.resetting then [] else [.creditReturn .read]
    let free := s.sp.reads.length < 32 ∧ s.sp.live.length + s.sp.writes.countP WriteRec.claimed < 16
    (bad → exec .takeRead s = .next
      { s with sp := popped, stats := s.stats.count .formatErrors,
               out := s.out ++ [.readDone r.initiator r.tag .formatError []] ++ credit }) ∧
    (¬bad → s.sp.pairHeld r.initiator r.tag = true → exec .takeRead s = .next
      { s with sp := popped, stats := s.stats.count .tagErrors,
               out := s.out ++ [.readDone r.initiator r.tag .tagError []] ++ credit }) ∧
    (¬bad → s.sp.pairHeld r.initiator r.tag = false → s.captureMask r = r.range → exec .takeRead s = .next
      { s with sp := popped,
               out := s.out ++ [.readDone r.initiator r.tag .ok
                 (((s.captureData r).toList.drop (r.addr.toNat % 32)).take r.len.toNat)] ++ credit }) ∧
    (¬bad → s.sp.pairHeld r.initiator r.tag = false → s.captureMask r ≠ r.range → ¬free →
      exec .takeRead s = .next s) ∧
    (¬bad → s.sp.pairHeld r.initiator r.tag = false → s.captureMask r ≠ r.range → free →
      ∃ id, (∀ q ∈ s.sp.reads, q.id ≠ id) ∧ exec .takeRead s = .next
        { s with
          sp := { popped with
            reads := s.sp.reads ++
              [{ id := id, initiator := r.initiator, tag := r.tag, addr := r.addr, len := r.len, silent := false,
                 capture := if s.captureMask r = 0 then none
                   else some { mask := s.captureMask r, data := s.captureData r } }]
            live := s.sp.live ++ [.read r.block id] }
          out := s.out ++ credit })

/-- R33, R34, R35, R41, R68, R120, R121, R125: the WRITE at the head of its lane: its error answers, and a write handled as a
plain one, as every write without the marker attribute is: merged, held in a new entry, sent straight or waiting; R31: the
entry of a block; R67: a mark joins a map. `StallKept`, an invariant, says that no record is claimed while the lane is not
stalled. WRITE_DONE before the credit return in the outputs is the model's choice (log 22). -/
def Obligations.TakeWriteOutcomes : Prop :=
  (∀ s : State, s.sp.wlane = [] ∨ s.frz.stall ≠ none → exec .takeWrite s = .next s) ∧
  (∀ (j : Jrn) (b : Addr), j.find b = j.entries.find? fun e => decide (e.block = b)) ∧
  (∀ (p : Nat) (m : List Nat), (∀ q, q ∈ insertMark p m ↔ q = p ∨ q ∈ m) ∧
    (m.Pairwise (· < ·) → (insertMark p m).Pairwise (· < ·))) ∧
  ∀ (s : State) (w : WriteReq) (rest : List WriteReq), s.sp.wlane = w :: rest → s.frz.stall = none →
    let bad := w.mask = 0 ∨ w.addr.toNat % 32 ≠ 0 ∨ w.data.length ≠ (List.range 32).countP w.mask.getLsbD
    let popped : Sp :=
      { s.sp with
        wlane := rest
        wcred := s.sp.wcred + if s.resetting then 0 else 1
        wheld := s.sp.wheld + if s.resetting then 1 else 0 }
    let credit : List Output := if s.resetting then [] else [.creditReturn .write]
    let free := s.sp.writes.length < 16 ∧ s.sp.live.length + s.sp.writes.countP WriteRec.claimed < 16
    (bad → exec .takeWrite s = .next
      { s with sp := popped, stats := s.stats.count .formatErrors,
               out := s.out ++ [.writeDone w.initiator w.tag .formatError] ++ credit }) ∧
    (¬bad → s.sp.pairHeld w.initiator w.tag = true → exec .takeWrite s = .next
      { s with sp := popped, stats := s.stats.count .tagErrors,
               out := s.out ++ [.writeDone w.initiator w.tag .tagError] ++ credit }) ∧
    (¬bad → s.sp.pairHeld w.initiator w.tag = false → w.marker = false →
      exec .takeWrite s = .next (s.plainWrite w)) ∧
    (s.StallKept →
      (∀ i d e, imageWindow s.win.table w.addr = some (i, d) → s.jrn.find w.addr = some e → s.plainWrite w =
        { s with
          sp := popped
          jrn := { s.jrn with
            entries := s.jrn.entries.map fun e =>
              if e.block = w.addr then
                { e with mask := e.mask ||| w.mask, data := overlay w.mask w.block32 e.data,
                         redirty := e.redirty || decide (e.st = .issued) }
              else e }
          maps := { s.maps with coll := insertMark (d.mapOffset + (w.addr.toNat - d.base.toNat) / 4096) s.maps.coll }
          stats := s.stats.count .jrnMerges
          out := s.out ++ [.writeDone w.initiator w.tag .ok] ++ credit }) ∧
      (∀ i d, imageWindow s.win.table w.addr = some (i, d) → s.jrn.find w.addr = none → s.frz.st = .frozen →
        s.jrn.entries.length < 2048 → s.plainWrite w =
          { s with
            sp := popped
            jrn := { s.jrn with
              entries := s.jrn.entries ++
                [{ block := w.addr, window := i, epoch := (match s.frz.history with | r :: _ => r.number | [] => 0), mask := w.mask,
                   data := w.block32, st := .held, redirty := false, retry := 0 }]
              armed := s.jrn.armed && !decide (s.jrn.hwm.toNat ≤ s.jrn.entries.length + 1) }
            maps := { s.maps with coll := insertMark (d.mapOffset + (w.addr.toNat - d.base.toNat) / 4096) s.maps.coll }
            alert := if s.jrn.armed = true ∧ s.jrn.hwm.toNat ≤ s.jrn.entries.length + 1 then s.alert.raise .journalHigh
              else s.alert
            stats := (s.stats.count .jrnAllocs).offerPeak (s.jrn.entries.length + 1)
            out := s.out ++ [.writeDone w.initiator w.tag .ok] ++ credit }) ∧
      ((imageWindow s.win.table w.addr = none ∨ (s.jrn.find w.addr = none ∧ s.frz.st ≠ .frozen)) →
        (¬free → s.plainWrite w = s) ∧
        (free → ∃ id, (∀ q ∈ s.sp.writes, q.id ≠ id) ∧ s.plainWrite w =
          { s with
            sp := { popped with
              writes := s.sp.writes ++
                [{ id := id, initiator := w.initiator, tag := w.tag, silent := false, claimed := false }]
              live := s.sp.live ++ [.write w.addr w.mask w.block32 id] }
            maps := { s.maps with
              coll := match imageWindow s.win.table w.addr with
                | some (_, d) => insertMark (d.mapOffset + (w.addr.toNat - d.base.toNat) / 4096) s.maps.coll
                | none => s.maps.coll }
            out := s.out ++ credit })))

/-- R11, R12, R28, R126: a marker write at the head of its lane; one that is refused is handled as a plain write. -/
def Obligations.MarkerWriteOutcomes : Prop :=
  ∀ (s : State) (w : WriteReq) (rest : List WriteReq), s.sp.wlane = w :: rest → s.frz.stall = none →
    ¬(w.mask = 0 ∨ w.addr.toNat % 32 ≠ 0 ∨ w.data.length ≠ (List.range 32).countP w.mask.getLsbD) →
    s.sp.pairHeld w.initiator w.tag = false → w.marker = true →
    let free := s.sp.writes.length < 16 ∧ s.sp.live.length + s.sp.writes.countP WriteRec.claimed < 16
    let possible := s.frz.st = .idle ∧ s.frz.active = false ∧ s.lnk.up = true
    let refused : State :=
      { s with alert := s.alert.raise .markerRefused, stats := s.stats.count .markersRefused }
    (¬free → exec .takeWrite s = .next s) ∧
    (free →
      (s.resetting = true → exec .takeWrite s = .next (refused.plainWrite w)) ∧
      (s.resetting = false → possible →
        exec .takeWrite s = .next ((s.takeStraight w).freezePoint .marker s.frz.markerKind)) ∧
      (s.frz.st = .frozen → exec .takeWrite s = .next (refused.plainWrite w)) ∧
      (s.resetting = false → ¬possible → s.frz.slot.isSome = true →
        exec .takeWrite s = .next (refused.plainWrite w)) ∧
      (s.resetting = false → ¬possible → s.frz.st ≠ .frozen → s.frz.slot = none →
        ∃ id, (∀ q ∈ s.sp.writes, q.id ≠ id) ∧ exec .takeWrite s = .next
          { s with
            frz := { s.frz with
              slot := some { source := .marker, kind := s.frz.markerKind }
              stall := some .marker
              stallTimer := 0 }
            sp := { s.sp with
              writes := s.sp.writes ++
                [{ id := id, initiator := w.initiator, tag := w.tag, silent := false, claimed := true }] }
            alert := s.alert.raise .writeStall
            stats := s.stats.count .writeStalls }))

/-- R42, R43, R44, R125, R127: a plain write that meets exhaustion, and the write of BREAK to JRN_CFG during the stall (R47). -/
def Obligations.ExhaustionOutcomes : Prop :=
  (∀ (s : State) (w : WriteReq) (i : Nat) (d : Window), imageWindow s.win.table w.addr = some (i, d) →
    s.jrn.find w.addr = none → s.frz.st = .frozen → 2048 ≤ s.jrn.entries.length →
    let free := s.sp.writes.length < 16 ∧ s.sp.live.length + s.sp.writes.countP WriteRec.claimed < 16
    (¬free → s.plainWrite w = s) ∧
    (free → s.jrn.policy = .break_ → s.plainWrite w = (s.breakEpoch .journalFull).takeStraight w) ∧
    (free → s.jrn.policy = .hold → ∃ id, (∀ q ∈ s.sp.writes, q.id ≠ id) ∧ s.plainWrite w =
      { s with
        frz := { s.frz with stall := some .exhaustion, stallTimer := 0 }
        sp := { s.sp with
          writes := s.sp.writes ++
            [{ id := id, initiator := w.initiator, tag := w.tag, silent := false, claimed := true }] }
        alert := s.alert.raise .writeStall
        stats := s.stats.count .writeStalls })) ∧
  ∀ (s : State) (w : WriteLine) (v : Word16), w.good → s.hunting →
    let t : State :=
      { s.accessed 0x042 .invalid with
        jrn := { s.jrn with policy := if v.getLsbD 0 then .break_ else .hold } }
    (s.jrn.policy = .hold → v.getLsbD 0 = true → s.frz.stall = some .exhaustion →
      exec (.jrnCfgWrite w v) s = .next (t.breakEpoch .journalFull)) ∧
    (¬(s.jrn.policy = .hold ∧ v.getLsbD 0 = true ∧ s.frz.stall = some .exhaustion) →
      exec (.jrnCfgWrite w v) s = .next t)

/-- R12, R35, R68, R126, R127, R129, R130: how the stalled write at the head of its lane is taken at the end of its stall:
straight, its claimed record becoming the record of the straight write and its claimed slot an entry at the live queue's
tail, or merged, its claim released; and a straight take that has no claim. A marker stall never ends by an allocation, since
no request waits in FROZEN (the invariant `CapacityKept`). The response before the credit return in the outputs is the
model's choice (log 22). -/
def Obligations.TakesOfAStalledWrite : Prop :=
  ∀ (s : State) (w : WriteReq) (rest : List WriteReq), s.sp.wlane = w :: rest →
    let popped : Sp :=
      { s.sp with
        wlane := rest
        wcred := s.sp.wcred + if s.resetting then 0 else 1
        wheld := s.sp.wheld + if s.resetting then 1 else 0 }
    let credit : List Output := if s.resetting then [] else [.creditReturn .write]
    let marked : List Nat := match imageWindow s.win.table w.addr with
      | some (_, d) => insertMark (d.mapOffset + (w.addr.toNat - d.base.toNat) / 4096) s.maps.coll
      | none => s.maps.coll
    let straight := fun (records : List WriteRec) (id : Nat) =>
      { s with
        frz := { s.frz with stall := none }
        sp := { popped with writes := records, live := s.sp.live ++ [.write w.addr w.mask w.block32 id] }
        maps := { s.maps with coll := marked }
        out := s.out ++ credit }
    (∀ take, s.endStallWith take = take s w) ∧
    (∀ before r after, s.sp.writes = before ++ r :: after → r.claimed = true →
      (∀ x ∈ before ++ after, x.claimed = false) →
      s.takeStraight w = straight (before ++ { r with claimed := false } :: after) r.id ∧
      (∀ i d e, imageWindow s.win.table w.addr = some (i, d) → s.jrn.find w.addr = some e → s.takePlain w =
        { s with
          frz := { s.frz with stall := none }
          sp := { popped with writes := before ++ after }
          jrn := { s.jrn with
            entries := s.jrn.entries.map fun e =>
              if e.block = w.addr then
                { e with mask := e.mask ||| w.mask, data := overlay w.mask w.block32 e.data,
                         redirty := e.redirty || decide (e.st = .issued) }
              else e }
          maps := { s.maps with coll := marked }
          stats := s.stats.count .jrnMerges
          out := s.out ++ [.writeDone w.initiator w.tag .ok] ++ credit }) ∧
      (imageWindow s.win.table w.addr = none ∨ (s.jrn.find w.addr = none ∧ s.frz.st ≠ .frozen) →
        s.takePlain w = s.takeStraight w)) ∧
    ((∀ x ∈ s.sp.writes, x.claimed = false) → ∃ id, (∀ q ∈ s.sp.writes, q.id ≠ id) ∧
      s.takeStraight w =
        straight
          (s.sp.writes ++ [{ id := id, initiator := w.initiator, tag := w.tag, silent := false, claimed := false }]) id)

/-- R35, R37, R120, R148: which bytes a merge, a capture, a write's data and a read's response carry, position by position; R37,
R119: the block and the positions a read asks for; R65, R66: the IMAGE window of a block, in a table whose enabled windows
share no byte (the invariant `windowsKept`). -/
def Obligations.BytesOfMergesCapturesAndResponses : Prop :=
  (∀ (s : State) (a : Addr) (i : Nat) (d : Window), s.windowsKept →
    (imageWindow s.win.table a = some (i, d) ↔
      s.win.table[i]? = some d ∧ d.kind = .image ∧ d.base.toNat ≤ a.toNat ∧ a.toNat < d.base.toNat + 4096 * d.size)) ∧
  (∀ r : ReadReq, r.block.toNat = 32 * (r.addr.toNat / 32) ∧
    (r.addr.toNat % 32 + r.len.toNat ≤ 32 → ∀ i : Fin 32,
      (r.range.getLsbD i = true ↔ r.addr.toNat % 32 ≤ i.val ∧ i.val < r.addr.toNat % 32 + r.len.toNat))) ∧
  (∀ (mask : ByteMask) (new old : Block) (i : Fin 32),
    (overlay mask new old)[i] = if mask.getLsbD i then new[i] else old[i]) ∧
  (∀ (w : WriteReq) (i : Fin 32), w.data.length = (List.range 32).countP w.mask.getLsbD → w.mask.getLsbD i = true →
    w.data[(List.range i).countP w.mask.getLsbD]? = some w.block32[i]) ∧
  (∀ (s : State) (r : ReadReq) (i : Fin 32), r.addr.toNat % 32 + r.len.toNat ≤ 32 →
    ((s.captureMask r).getLsbD i = true ↔
      (r.addr.toNat % 32 ≤ i.val ∧ i.val < r.addr.toNat % 32 + r.len.toNat) ∧
        (imageWindow s.win.table r.block).isSome = true ∧
        ∃ e, s.jrn.find r.block = some e ∧ e.mask.getLsbD i = true ∧ (s.captureData r)[i] = e.data[i])) ∧
  (∀ (r : ReadRec) (data : Block), r.addr.toNat % 32 + r.len.toNat ≤ 32 → (r.response data).length = r.len.toNat) ∧
  ∀ (r : ReadRec) (data : Block) (j : Nat) (h : r.addr.toNat % 32 + j < 32), j < r.len.toNat →
    (r.response data)[j]? = some
      (match r.capture with
        | some c => if c.mask.getLsbD (r.addr.toNat % 32 + j) then c.data[r.addr.toNat % 32 + j]
          else data[r.addr.toNat % 32 + j]
        | none => data[r.addr.toNat % 32 + j])

/-! ### The memory port -/

/-- R143, R144, R145, R79, R50: who wins a grant, and what the grant does before the memory port may send; R48, R49, R80: when
a requester has work, and which entry or read it presents; R78: the block of a copier read; R145, R146: the share of a
requester and the access a live-queue entry becomes. -/
def Obligations.GrantOutcomes : Prop :=
  (∀ w : Weights, w.of .live = w.live.toNat ∧ w.of .drain = w.drain.toNat ∧ w.of .copier = w.copier.toNat) ∧
  (∀ (b : Addr) (id : Nat), (LiveEntry.read b id).access = .liveRead id ∧ (LiveEntry.read b id).block = b) ∧
  (∀ (b : Addr) (mask : ByteMask) (data : Block) (id : Nat),
    (LiveEntry.write b mask data id).access = .liveWrite id mask data ∧ (LiveEntry.write b mask data id).block = b) ∧
  ∀ s : State,
    let slot := s.mp.queue.length < 32
    let work := fun r => s.hasWork r = true
    (¬(slot ∧ (work .live ∨ work .drain ∨ work .copier)) → exec .grant s = .next s) ∧
    (slot → work s.mp.pos → s.mp.grants < s.mp.cur.of s.mp.pos →
      let m : Mp :=
        if s.mp.grants + 1 < s.mp.cur.of s.mp.pos then { s.mp with grants := s.mp.grants + 1 } else s.mp.move
      (s.mp.pos = .live → ∀ q rest, s.sp.live = q :: rest → exec .grant s = .next
        (State.sendToMemory
          { s with
            sp := { s.sp with live := rest }
            cap := { s.cap with fence := s.cap.fence - 1 }
            mp := { m with queue := s.mp.queue ++ [{ access := q.access, block := q.block, issued := false }] } })) ∧
      (s.mp.pos = .drain → ∀ e, s.jrn.oldestEligible s.sp.live = some e → exec .grant s = .next
        (State.sendToMemory
          { s with
            jrn := { s.jrn with
              entries := s.jrn.entries.map fun f => if f.block = e.block then { f with st := .issued } else f }
            mp := { m with
              queue := s.mp.queue ++ [{ access := .drain e.mask e.data, block := e.block, issued := false }] } })) ∧
      (s.mp.pos = .copier → (∀ q, s.lnk.slots.find? Slot.unissued = some q → exec .grant s = .next
          (State.sendToMemory
            { s with
              cap := { s.cap with reads := s.cap.reads + 1 }
              lnk := { s.lnk with
                slots := updateFirst Slot.unissued (fun q => { q with issued := q.issued + 1 }) s.lnk.slots }
              mp := { m with
                queue := s.mp.queue ++ [{ access := .copier, block := q.nextBlock s.win.table, issued := false }] } })) ∧
        (∀ w g c, s.lnk.slots.find? Slot.unissued = none → s.cap.plan[s.cap.pos]? = some (.data w g c) →
          exec .grant s = .next
            (State.sendToMemory
              { s with
                cap := { s.cap with reads := s.cap.reads + 1, pos := s.cap.pos + 1 }
                lnk := { s.lnk with
                  slots := s.lnk.slots ++
                    [{ st := .filling, seq := s.cap.pos, issued := 1,
                       frame := .data s.lnk.curEpoch s.cap.pos w c g [] }] }
                mp := { m with
                  queue := s.mp.queue ++
                    [{ access := .copier, block := readBlock s.win.table w g c 0, issued := false }] } })))) ∧
    (slot → (work .live ∨ work .drain ∨ work .copier) → s.mp.cur.positive → s.mp.cfg.positive →
      ¬(work s.mp.pos ∧ s.mp.grants < s.mp.cur.of s.mp.pos) →
      exec .grant s = exec .grant { s with mp := s.mp.move }) ∧
    let eligible := fun e : JEntry => e.st = .pending ∧ ∀ q ∈ s.sp.live, q.block ≠ e.block
    (work .live ↔ s.sp.live ≠ []) ∧
    (work .drain ↔ s.frz.st = .draining ∧ s.jrn.entries.countP (fun e => decide (e.st = .issued)) < 8 ∧
      ∃ e ∈ s.jrn.entries, eligible e) ∧
    (∀ e, s.jrn.oldestEligible s.sp.live = some e ↔ eligible e ∧ ∃ older younger,
      s.jrn.entries = older ++ e :: younger ∧ ∀ f ∈ older, ¬eligible f) ∧
    (work .copier ↔ s.cap.st = .copying ∧ s.cap.fence = 0 ∧
      ((∃ q ∈ s.lnk.slots, q.st = .filling ∧ q.issued < 8) ∨
        ((∃ w g c, s.cap.plan[s.cap.pos]? = some (.data w g c)) ∧ s.lnk.slots.length < 16))) ∧
    (∀ q : Slot, q.unissued = true ↔ q.st = .filling ∧ q.issued < 8) ∧
    (∀ (f : Slot → Slot) (before after : List Slot) (q : Slot), (∀ x ∈ before, x.unissued = false) → q.unissued = true →
      updateFirst Slot.unissued f (before ++ q :: after) = before ++ f q :: after) ∧
    ∀ w d, s.win.table[w]? = some d →
      (∀ g c k, readBlock s.win.table w g c k = d.base + BitVec.ofNat 40 (4096 * g + 256 * c + 32 * k)) ∧
      ∀ (q : Slot) (ep : Word16) (n c g : Nat) (p : List Byte), q.frame = .data ep n w c g p →
        q.nextBlock s.win.table = d.base + BitVec.ofNat 40 (4096 * g + 256 * c + 32 * q.issued)

/-- R140: the oldest WAITING entry is sent when there is a credit for it. That a read is sent also while an earlier write is
ISSUED is the model's reading of R140 beside R142 (log 31). -/
def Obligations.OldestWaitingEntryIsSent : Prop :=
  (∀ (s : State) (front back : List MemEntry) (e : MemEntry), s.mp.queue = front ++ e :: back →
    (∀ f ∈ front, f.issued = true) → e.issued = false →
    (s.mp.credits = 0 → s.sendToMemory = s) ∧
    (s.mp.credits ≠ 0 → s.sendToMemory =
      { s with
        mp := { s.mp with queue := front ++ { e with issued := true } :: back, credits := s.mp.credits - 1 }
        out := s.out ++ [match e.access with
          | .liveRead _ => .memRead e.block
          | .copier => .memRead e.block
          | .liveWrite _ mask data => .memWrite e.block mask data
          | .drain mask data => .memWrite e.block mask data] })) ∧
  ∀ s : State, (∀ e ∈ s.mp.queue, e.issued = true) → s.sendToMemory = s

/-- R131, R136, R141, R148, R149, R150: spurious completions, and the completions of LIVE accesses. That the record an entry
refers to is on its list is the invariant `RefsKept`. The memory access that the returned credit lets the port send before
the response of the completion in the outputs is the model's choice (log 22). -/
def Obligations.LiveCompletions : Prop :=
  ∀ (s : State) (ok : Bool) (data : Block),
    ((s.mp.queue = [] ∨ ∃ e rest, s.mp.queue = e :: rest ∧ e.issued = false) →
      exec (.completion ok data) s = .next { s with alert := s.alert.raise .portProtocol }) ∧
    ∀ e rest, s.mp.queue = e :: rest → e.issued = true →
      let u := State.sendToMemory { s with mp := { s.mp with queue := rest, credits := s.mp.credits + 1 } }
      (∀ id r, e.access = .liveRead id → s.sp.reads.find? (fun q => decide (q.id = id)) = some r →
        exec (.completion ok data) s = .next
          { u with
            sp := { s.sp with reads := s.sp.reads.filter fun q => decide (q.id ≠ id) }
            alert := if ok then s.alert else s.alert.raise .memError
            stats := if ok then s.stats else s.stats.count .memReadErrors
            out := u.out ++ if r.silent then [] else
              [if ok then .readDone r.initiator r.tag .ok (r.response data)
                else .readDone r.initiator r.tag .memError []] }) ∧
      (∀ id mask wd r, e.access = .liveWrite id mask wd → s.sp.writes.find? (fun q => decide (q.id = id)) = some r →
        exec (.completion ok data) s = .next
          { u with
            sp := { s.sp with writes := s.sp.writes.filter fun q => decide (q.id ≠ id) }
            alert := if ok then s.alert else s.alert.raise .memError
            stats := if ok then s.stats else s.stats.count .memWriteErrors
            out := u.out ++ if r.silent then [] else
              [.writeDone r.initiator r.tag (if ok then .ok else .memError)] })

/-- R51, R52, R53, R54, R41, R17: the completion of a drain write. That the journal has the entry is the invariant `RefsKept`.
The memory access sent before what the end of the drain puts out is the model's choice (log 22). -/
def Obligations.DrainCompletions : Prop :=
  ∀ (s : State) (data : Block) (e : MemEntry) (rest : List MemEntry) (mask : ByteMask) (wd : Block) (j : JEntry),
    s.mp.queue = e :: rest → e.issued = true → e.access = .drain mask wd → s.jrn.find e.block = some j →
    let u := State.sendToMemory { s with mp := { s.mp with queue := rest, credits := s.mp.credits + 1 } }
    let changed := fun f : JEntry → JEntry =>
      { s.jrn with entries := s.jrn.entries.map fun x => if x.block = j.block then f x else x }
    let left := s.jrn.entries.filter fun x => decide (x.block ≠ j.block)
    let removed : Jrn :=
      { s.jrn with entries := left, armed := s.jrn.armed || decide (left.length ≤ s.jrn.lwm.toNat) }
    let ended := fun t : State =>
      if s.frz.st = .draining ∧ left = [] then
        State.evaluate { t with frz := { s.frz with st := .idle }, alert := t.alert.raise .drainDone }
      else t
    (j.redirty = true → exec (.completion true data) s = .next
      { u with jrn := changed fun x => { x with st := .pending, redirty := false, retry := 0 } }) ∧
    (j.redirty = false → exec (.completion true data) s = .next (ended { u with jrn := removed })) ∧
    (j.retry < 2 → exec (.completion false data) s = .next
      { u with jrn := changed fun x => { x with st := .pending, redirty := false, retry := x.retry + 1 } }) ∧
    (2 ≤ j.retry → exec (.completion false data) s = .next (ended
      { u with
        jrn := { removed with
          fault := { block := j.block, window := j.window, epoch := j.epoch, count := min (s.jrn.fault.count + 1) 255 } }
        alert := s.alert.raise .drainLoss
        stats := s.stats.count .drainLosses }))

/-- R81, R82, R83, R85, R86: the completion of a copier read. The memory access sent before what a break or the end of capture
puts out is the model's choice (log 22). -/
def Obligations.CopierCompletions : Prop :=
  ∀ (s : State) (ok : Bool) (data : Block) (e : MemEntry) (rest : List MemEntry),
    s.mp.queue = e :: rest → e.issued = true → e.access = .copier →
    let u := State.sendToMemory { s with mp := { s.mp with queue := rest, credits := s.mp.credits + 1 } }
    (s.cap.stale ≠ 0 → exec (.completion ok data) s = .next
      { u with cap := { s.cap with reads := s.cap.reads - 1, stale := s.cap.stale - 1 } }) ∧
    (s.cap.stale = 0 → exec (.completion false data) s = .next
      (State.breakEpoch { u with cap := { s.cap with reads := s.cap.reads - 1 } } .memRead)) ∧
    (s.cap.stale = 0 → ∀ before q after ep n w c g p, s.lnk.slots = before ++ q :: after →
      (∀ x ∈ before, x.st ≠ .filling) → q.st = .filling → q.frame = .data ep n w c g p →
      let whole := p.length + 32 = 256
      let captured := if whole ∧ c = 15 then 1 else 0
      let t : State :=
        { u with
          cap := { s.cap with
            reads := s.cap.reads - 1
            digest := crcUpdate s.cap.digest data.toList
            dataBuilt := s.cap.dataBuilt + if whole then 1 else 0
            remain := s.cap.remain - captured }
          lnk := { s.lnk with
            slots := before ++
              { q with frame := .data ep n w c g (p ++ data.toList), st := if whole then .ready else .filling } :: after }
          frz := { s.frz with
            history := match s.frz.history with
              | r :: older => { r with granules := r.granules + captured } :: older
              | [] => [] } }
      exec (.completion true data) s = .next
        (if (s.cap.plan.drop s.cap.pos).any PlanFrame.isData = false ∧ ∀ x ∈ t.lnk.slots, x.st ≠ .filling then
          t.captureComplete else t))

/-! ### The image copier -/

/-- R77, R84, R85: FILL frames and END take slots. That a FILL frame behind the last IMAGE window takes one also while the copier is
still COPYING is the model's reading of R77 (log 32). -/
def Obligations.FillAndEndFramesTakeSlots : Prop :=
  ∀ s : State,
    (∀ i d, s.cap.plan[s.cap.pos]? = some (.fill i) → s.win.table[i]? = some d → s.cap.st ≠ .idle →
      s.lnk.slots.length < 16 → exec .placeFillFrame s = .next
        { s with
          cap := { s.cap with pos := s.cap.pos + 1, fillBuilt := s.cap.fillBuilt + 1 }
          lnk := { s.lnk with
            slots := s.lnk.slots ++
              [{ st := .ready, seq := s.cap.pos, issued := 0,
                 frame := .fill s.lnk.curEpoch s.cap.pos i d.fill d.size }] } }) ∧
    ((¬∃ i, s.cap.plan[s.cap.pos]? = some (.fill i)) ∨ s.cap.st = .idle ∨ 16 ≤ s.lnk.slots.length →
      exec .placeFillFrame s = .next s) ∧
    (∀ r older, s.cap.plan[s.cap.pos]? = some .closing → s.cap.st = .closing → s.lnk.slots.length < 16 →
      s.frz.history = r :: older → exec .buildEnd s = .next
        { s with
          cap := { s.cap with st := .idle, pos := s.cap.pos + 1 }
          lnk := { s.lnk with
            slots := s.lnk.slots ++
              [{ st := .ready, seq := s.cap.pos, issued := 0,
                 frame := .closing s.lnk.curEpoch s.cap.pos s.cap.dataBuilt s.cap.fillBuilt (~~~s.cap.digest) }] }
          frz := { s.frz with history := { r with digest := some (~~~s.cap.digest) } :: older } }) ∧
    (s.cap.plan[s.cap.pos]? ≠ some .closing ∨ s.cap.st ≠ .closing ∨ 16 ≤ s.lnk.slots.length →
      exec .buildEnd s = .next s)

/-- R75, R69: the frame plan, frame by frame: OPEN, the windows in ascending index (a FILL frame of a FULL epoch, the selected
granules of an IMAGE window in ascending order with 16 DATA frames each), END; its length with F and G; and, the maps and the
table well kept (invariants), the granules a DELTA epoch selects are the marks of the map in ascending order. -/
def Obligations.FramePlanContents : Prop :=
  (∀ p : PlanFrame, p.isData = true ↔ ∃ w g c, p = .data w g c) ∧
  (∀ (kind : Kind) (img : List Nat) (table : List Window),
    let plan := framePlan kind img table
    let fills := if kind = .full then table.countP fun w => decide (w.kind = .fill) else 0
    plan = .opening ::
      (table.mapIdx fun i w => match w.kind with
        | .off => []
        | .fill => if kind = .full then [.fill i] else []
        | .image => ((List.range w.size).filter fun g => decide (kind = .full ∨ w.mapOffset + g ∈ img)).flatMap fun g =>
            (List.range 16).map fun c => PlanFrame.data i g c).flatten ++ [.closing] ∧
    plan.length = 1 + fills + 16 * granuleCount kind img table + 1 ∧
    plan.countP PlanFrame.isData = 16 * granuleCount kind img table ∧
    (kind = .full → granuleCount kind img table =
      ((table.filter fun w => decide (w.kind = .image)).map Window.size).sum)) ∧
  ∀ s : State, s.tableKept → s.mapsKept →
    ((s.win.table.filter fun w => decide (w.kind = .image)).flatMap fun w =>
      ((List.range w.size).filter fun g => decide (w.mapOffset + g ∈ s.maps.coll)).map fun g => w.mapOffset + g) =
        s.maps.coll ∧
    granuleCount .delta s.maps.coll s.win.table = s.maps.coll.length

/-- R76, R84, R98, R193, 10.6, 10.9: the outbound frames as they stand on the line: the kind byte, the length of the body, the
body with its fields, and the frame check, multi-byte fields little-endian; the descriptor list of OPEN; and the CRC-32. -/
def Obligations.FramesOnTheLine : Prop :=
  let le := fun (k n : Nat) => (List.range k).map fun i => (BitVec.ofNat 8 (n / 256 ^ i) : Byte)
  let framed := fun (f : Frame) (kind length : Nat) (body : List Byte) =>
    f.bytes = le 1 kind ++ le 2 length ++ body ++ le 4 (crc32 (le 1 kind ++ le 2 length ++ body)).toNat ∧
      body.length = length
  (∀ (epoch : Word16) (k : Kind) (ds : List Descriptor) (g : Nat),
    framed (.opening epoch k ds g) 0x01 (12 + 16 * ds.length)
      (le 2 epoch.toNat ++ le 4 0 ++ le 1 (match k with | .full => 1 | .delta => 2) ++ le 1 ds.length ++ le 4 g ++
        ds.flatMap fun d => le 1 d.window ++ le 1 (match d.kind with | .off => 0 | .image => 1 | .fill => 2) ++ [d.fill, 0] ++
          le 2 d.size ++ [0, 0] ++ le 8 d.base.toNat)) ∧
  (∀ (epoch : Word16) (n w c g : Nat) (p : List Byte), p.length = 256 →
    framed (.data epoch n w c g p) 0x02 266 (le 2 epoch.toNat ++ le 4 n ++ le 1 w ++ le 1 c ++ le 2 g ++ p)) ∧
  (∀ (epoch : Word16) (n w : Nat) (b : Byte) (size : Nat),
    framed (.fill epoch n w b size) 0x03 10 (le 2 epoch.toNat ++ le 4 n ++ le 1 w ++ [b] ++ le 2 size)) ∧
  (∀ (epoch : Word16) (n dataCount fillCount : Nat) (digest : Word32),
    framed (.closing epoch n dataCount fillCount digest) 0x04 16
      (le 2 epoch.toNat ++ le 4 n ++ le 4 dataCount ++ le 1 fillCount ++ [0] ++ le 4 digest.toNat)) ∧
  (∀ (epoch : Word16) (cause : BreakCause),
    framed (.abandon epoch cause) 0x05 4
      (le 2 epoch.toNat ++
        le 1 (match cause with
          | .abort => 1 | .epochLimit => 2 | .journalFull => 3 | .stallLimit => 4 | .memRead => 5 | .linkRetry => 6
          | .linkLost => 7 | .pauseLimit => 8 | .linkProtocol => 9 | .rejected => 10 | .reset => 11) ++ [0])) ∧
  (∀ table : List Window, descriptorsFrom 0 table =
    (table.mapIdx fun i w => if w.kind = .off then [] else
      [({ window := i, kind := w.kind, base := w.base, size := w.size, fill := w.fill } : Descriptor)]).flatten) ∧
  ∀ bs : List Byte, crc32 bs = ~~~(crcUpdate 0xFFFFFFFF bs) ∧ ∀ c : Word32, crcUpdate c bs =
    bs.foldl (fun c b => (List.range 8).foldl
      (fun c _ => if c.getLsbD 0 then (c >>> 1) ^^^ 0xEDB88320#32 else c >>> 1) (c ^^^ b.setWidth 32)) c

/-! ### The replication link -/

/-- R90, R91, R89: lock gained and lost. The cut frame before what the break puts out is the model's choice (log 22). -/
def Obligations.LockGainedAndLost : Prop :=
  ∀ s : State,
    (s.lnk.up = true → exec .lockGained s = .next s) ∧
    (s.lnk.up = false → exec .lockGained s = .next
      (State.evaluate { s with lnk := { s.lnk with up := true }, alert := s.alert.raise .linkUp })) ∧
    (s.lnk.up = false → exec .lossOfLock s = .next s) ∧
    (s.lnk.up = true → exec .lossOfLock s = .next
      (State.breakEpoch
        { s with
          lnk := { s.lnk with up := false, tx := none, pauseTimer := 0, contPause := 0, abandon := none }
          alert := s.alert.raise .linkDown
          stats := s.stats.count .lockLosses
          out := s.out ++ if s.lnk.tx.isSome then [.frameCut] else [] }
        .linkLost))

/-- R96, R97, R113: which frame starts, what its start does, and its end. -/
def Obligations.TransmissionOfFrames : Prop :=
  ∀ s : State,
    let ready := s.lnk.up = true ∧ s.lnk.pauseTimer = 0 ∧ s.lnk.tx = none
    (∀ q r older, ready → s.lnk.abandon = none → s.lnk.slots.find? (fun q => decide (q.seq = s.lnk.txPt)) = some q →
      q.st = .ready → (q.frame.isEnd = true → s.lnk.ackPt = q.seq) → s.frz.history = r :: older →
      let first := q.seq = s.lnk.sentCnt
      exec .startTransmission s = .next
        { s with
          lnk := { s.lnk with
            slots := s.lnk.slots.map fun x => if x.seq = q.seq then { x with st := .sent } else x
            txPt := s.lnk.txPt + 1
            sentCnt := if first then s.lnk.sentCnt + 1 else s.lnk.sentCnt
            ctl := if q.frame.isEnd then .awaitCommit else s.lnk.ctl
            tx := some q.frame }
          stats := s.stats.count (if first then .framesSent else .framesResent)
          frz := { s.frz with
            history :=
              (if first then { r with framesSent := min (r.framesSent + 1) (2 ^ 32 - 1) }
                else { r with framesResent := min (r.framesResent + 1) (2 ^ 32 - 1) }) :: older }
          out := s.out ++ [.frameStart q.frame.bytes] }) ∧
    (¬ready ∨ s.lnk.abandon ≠ none ∨ s.lnk.slots.find? (fun q => decide (q.seq = s.lnk.txPt)) = none →
      exec .startTransmission s = .next s) ∧
    (∀ q, s.lnk.slots.find? (fun q => decide (q.seq = s.lnk.txPt)) = some q →
      q.st ≠ .ready ∨ (q.frame.isEnd = true ∧ s.lnk.ackPt ≠ q.seq) → exec .startTransmission s = .next s) ∧
    (∀ epoch cause, s.lnk.abandon = some (epoch, cause) →
      (ready → exec .startAbandon s = .next
        { s with
          lnk := { s.lnk with abandon := none, tx := some (.abandon epoch cause) }
          out := s.out ++ [.frameStart (Frame.abandon epoch cause).bytes] }) ∧
      (¬ready → exec .startAbandon s = .next s)) ∧
    (s.lnk.abandon = none → exec .startAbandon s = .next s) ∧
    (s.lnk.tx = none → exec .transmissionEnd s = .next s) ∧
    (s.lnk.tx ≠ none → exec .transmissionEnd s = .next
      { s with lnk := { s.lnk with tx := none }, out := s.out ++ [.frameEnd] }) ∧
    ∀ f : Frame, f.isEnd = true ↔ ∃ epoch n dataCount fillCount digest, f = .closing epoch n dataCount fillCount digest

/-- R101: an ACK for the current epoch. -/
def Obligations.AckOutcomes : Prop :=
  ∀ (s : State) (n : Word32), s.lnk.up = true → s.frz.active = true →
    let last := s.cap.plan.length - 1
    let m := if n.toNat = last then n.toNat - 1 else n.toNat
    (m < s.lnk.ackPt → exec (.ack s.lnk.curEpoch n) s = .next { s with stats := s.stats.count .badFramesRcvd }) ∧
    (s.lnk.ackPt ≤ m → m < s.lnk.sentCnt → exec (.ack s.lnk.curEpoch n) s = .next
      { s with
        lnk := { s.lnk with
          slots := s.lnk.slots.filter fun q => decide (m < q.seq)
          ackPt := m + 1
          txPt := max s.lnk.txPt (m + 1)
          retry := 0
          ackTimer := 0 } }) ∧
    (s.lnk.ackPt ≤ m → s.lnk.sentCnt ≤ m → exec (.ack s.lnk.curEpoch n) s = .next (s.breakEpoch .linkProtocol))

/-- R102, R109, R110: a NAK for the current epoch, the expiry of the ack timer, and the retransmission round they start. -/
def Obligations.NakAndAckTimeoutRounds : Prop :=
  let round := fun (t : State) (start : Nat) =>
    if t.lnk.retryLim.toNat < t.lnk.retry + 1 then t.breakEpoch .linkRetry
    else
      { t with
        lnk := { t.lnk with
          retry := t.lnk.retry + 1
          slots := t.lnk.slots.map fun q => if q.st = .sent ∧ start ≤ q.seq then { q with st := .ready } else q
          txPt := start
          ackTimer := 0 }
        alert := t.alert.raise .linkRetry }
  (∀ (t : State) (start : Nat), t.startRound start = round t start) ∧
  (∀ (s : State) (n : Word32), s.lnk.up = true → s.frz.active = true →
    let u : State := { s with stats := s.stats.count .naksRcvd }
    (n.toNat < s.lnk.ackPt ∨ s.lnk.sentCnt ≤ n.toNat →
      exec (.nak s.lnk.curEpoch n) s = .next (u.breakEpoch .linkProtocol)) ∧
    (s.lnk.ackPt ≤ n.toNat → n.toNat < s.lnk.sentCnt → exec (.nak s.lnk.curEpoch n) s = .next
      (round
        { u with
          lnk := { s.lnk with
            slots := s.lnk.slots.filter fun q => decide (n.toNat ≤ q.seq)
            ackPt := n.toNat
            txPt := max s.lnk.txPt n.toNat } }
        n.toNat))) ∧
  ∀ s : State,
    let due := (∃ q ∈ s.lnk.slots, q.st = .sent) ∧ s.lnk.pauseTimer = 0 ∧ s.lnk.ackTmo.toNat ≤ s.lnk.ackTimer
    (¬due → exec .ackTimerExpiry s = .next s) ∧
    (due → exec .ackTimerExpiry s = .next (round { s with stats := s.stats.count .ackTimeouts } s.lnk.ackPt))

/-- R18, R106: a COMMIT for the current epoch. That T is raised to A is the model's reading of R95 (log 16). -/
def Obligations.CommitOutcomes : Prop :=
  ∀ (s : State) (r : EpochRecord) (older : List EpochRecord), s.lnk.up = true → s.frz.history = r :: older →
    r.state.active = true →
    (s.lnk.ctl = .awaitCommit → exec (.commit s.lnk.curEpoch) s = .next
      (State.evaluate
        { s with
          lnk := { s.lnk with
            slots := [], ackPt := s.cap.plan.length, txPt := max s.lnk.txPt s.cap.plan.length, retry := 0,
            ackTimer := 0, ctl := .idle, prevEpoch := s.lnk.curEpoch }
          frz := { s.frz with
            history := { r with state := .committed } :: older
            baseline := s.frz.baseline || decide (r.kindPerformed = .full) }
          maps := { s.maps with img := [] }
          alert := s.alert.raise .epochCommitted
          stats := s.stats.count .epochsCommitted })) ∧
    (s.lnk.ctl ≠ .awaitCommit → exec (.commit s.lnk.curEpoch) s = .next (s.breakEpoch .linkProtocol))

/-- R99, R100, R108, R193: frames of stale and foreign epochs, and frames that the check discards. -/
def Obligations.StaleForeignAndDiscardedFrames : Prop :=
  ∀ s : State, s.lnk.up = true →
    let discarded : State := { s with stats := s.stats.count .badFramesRcvd }
    (∀ (epoch : Word16) (n : Word32) (reason : Byte), ¬(s.frz.active = true ∧ epoch = s.lnk.curEpoch) →
      let outcome := if (epoch = s.lnk.prevEpoch ∧ epoch ≠ 0) ∨ s.frz.active = false then discarded
        else s.breakEpoch .linkProtocol
      exec (.ack epoch n) s = .next outcome ∧ exec (.nak epoch n) s = .next outcome ∧
        exec (.commit epoch) s = .next outcome ∧ exec (.reject epoch reason) s = .next outcome) ∧
    ∀ f : RawFrame,
      f.check ≠ crc32 (f.kind :: (leBytes 2 f.length.toNat ++ f.body)) ∨
        (¬((f.kind = 0x11 ∨ f.kind = 0x12) ∧ f.length = 6) ∧ ¬((f.kind = 0x13 ∨ f.kind = 0x14) ∧ f.length = 2) ∧
          ¬(f.kind = 0x15 ∧ f.length = 4)) →
      exec (.inboundFrameDiscarded f) s = .next discarded

/-- R103, R107, R20, R24: PAUSE, and a REJECT for the current epoch. That a REJECT with NO_BASELINE makes the baseline INVALID
before the break and the evaluation of the slot is the model's reading (log 28). -/
def Obligations.PauseAndRejectFrames : Prop :=
  ∀ s : State, s.lnk.up = true →
    (∀ q : Word16, exec (.pause q) s = .next
      { s with
        lnk := { s.lnk with pauseTimer := q.toNat, contPause := if q = 0 then 0 else s.lnk.contPause }
        stats := s.stats.count .pausesRcvd }) ∧
    ∀ reason : Byte, s.frz.active = true →
      let stored : RejectReason := if reason = 1 then .noBaseline else if reason = 2 then .noSpace else .other
      exec (.reject s.lnk.curEpoch reason) s = .next
        (State.breakEpoch
          { s with
            lnk := { s.lnk with lastReject := stored }
            frz := { s.frz with baseline := if stored = .noBaseline then false else s.frz.baseline } }
          .rejected)

/-- R103, R105, R111: the pause timers, and the writes of the link's configuration, the pause limit and the ack timeout
applying at once. That LNK_ACK_TMO expires only with an epoch active, and also during a pause, is the model's reading (log
15); so is the end of a pause by this command (log 4). -/
def Obligations.PauseTimersAndLinkConfiguration : Prop :=
  let pauseDue := fun t : State =>
    0 < t.lnk.pauseTimer ∧ t.lnk.pauseLim ≠ 0 ∧ 1000 * t.lnk.pauseLim.toNat ≤ t.lnk.contPause
  (∀ s : State,
    (s.lnk.pauseTimer ≤ 1 →
      exec .pauseTimerExpiry s = .next { s with lnk := { s.lnk with pauseTimer := 0, contPause := 0 } }) ∧
    (1 < s.lnk.pauseTimer → exec .pauseTimerExpiry s = .next s) ∧
    (¬pauseDue s → exec .continuousPauseExpiry s = .next s) ∧
    (pauseDue s → exec .continuousPauseExpiry s = .next (s.breakEpoch .pauseLimit))) ∧
  ∀ (s : State) (w : WriteLine) (v : Word16), w.good → s.hunting →
    (v = 0 → exec (.lnkAckTmoWrite w v) s = .next (s.accessed 0x066 .invalid)) ∧
    (v ≠ 0 →
      let t : State := { s.accessed 0x066 .invalid with lnk := { s.lnk with ackTmo := v } }
      (¬(s.frz.active = true ∧ v.toNat ≤ s.lnk.ackTimer) → exec (.lnkAckTmoWrite w v) s = .next t) ∧
      (s.frz.active = true → v.toNat ≤ s.lnk.ackTimer → exec (.lnkAckTmoWrite w v) s = .next
        (State.startRound { t with stats := s.stats.count .ackTimeouts } s.lnk.ackPt))) ∧
    (v = 0 ∨ 15 < v.toNat → exec (.lnkRetryLimWrite w v) s = .next (s.accessed 0x067 .invalid)) ∧
    (1 ≤ v.toNat → v.toNat ≤ 15 → exec (.lnkRetryLimWrite w v) s = .next
      { s.accessed 0x067 .invalid with lnk := { s.lnk with retryLim := v } }) ∧
    let u : State := { s.accessed 0x068 .invalid with lnk := { s.lnk with pauseLim := v } }
    (¬pauseDue u → exec (.lnkPauseLimWrite w v) s = .next u) ∧
      (pauseDue u → exec (.lnkPauseLimWrite w v) s = .next (u.breakEpoch .pauseLimit))

/-! ### The management link -/

/-- R159: a WRITE whose parity bit is wrong, for every WRITE row of the table; and a WRITE whose parity is right is a write
access of the register its row names. -/
def Obligations.WriteFramesAreParityChecked : Prop :=
  ∀ (s : State) (c : Instr) (w : WriteLine) (reg : BitVec 9) (v : Word16), writeRow c = some (w, reg, v) →
    w.wf = true → s.hunting →
    (w.badParity = true → exec c s = .next
      { s with
        mgmt := { s.mgmt with rx := Receiver.idle }
        alert := s.alert.raise .mgmtFrameError
        stats := s.stats.count .mgmtFrameErrors }) ∧
    (w.badParity = false → exec c s = .next (s.frameEnded.writeAccess reg.toNat v))

/-- R157: frames for another device and frames with an invalid opcode. -/
def Obligations.ForeignAndInvalidFramesAreNotActedOn : Prop :=
  ∀ (s : State) (w : WriteLine) (op : BitVec 2) (device : BitVec 4) (reg : BitVec 9) (v : Word16), w.wf = true →
    s.hunting →
    (device ≠ s.mgmt.straps → exec (.frameForOtherDevice w op device reg v) s = .next s.frameEnded) ∧
    exec (.invalidOpcodeFrame w reg v) s = .next
      { s.frameEnded with alert := s.alert.raise .mgmtFrameError, stats := s.stats.count .mgmtFrameErrors }

/-- R155, R156: a start field that differs, and the frame timer. R156 to R160: a frame that MCK leaves after `k` of its 38 bits:
a WRITE, a frame for another device and one with an invalid opcode apply nothing; a READ and a READ_NEXT have their effects
from the last bit of the register number on, which stay when the frame timer drops the frame. R158: what the part drives
then: 0 in the second turnaround bit time, the data most significant bit first, the parity bit that makes the count of ones
even, and nothing otherwise. -/
def Obligations.BrokenStartsAndFrameTimeouts : Prop :=
  let bits := fun (k n : Nat) => (List.range k).map fun i => n.testBit (k - 1 - i)
  let at_ := fun (s : State) (rx : Receiver) => ({ s with mgmt := { s.mgmt with rx := rx } } : State)
  (∀ (s : State) (ones : Nat) (k : Fin 3), s.hunting → 16 ≤ ones →
    exec (.startFieldMismatch ones k) s = .next s.frameEnded) ∧
  (∀ s : State, s.mgmt.rx.phase ≠ .hunt → 64 ≤ s.mgmt.rx.timer → exec .frameTimerExpiry s = .next s.frameEnded) ∧
  (∀ s : State, s.mgmt.rx.phase = .hunt ∨ s.mgmt.rx.timer < 64 → exec .frameTimerExpiry s = .next s) ∧
  (∀ (s : State) (b : Bool), s.mgmt.rx.phase ≠ .hunt → (s.sampleBit b).mgmt.rx.timer = 0) ∧
  (∀ (s : State) (c : Instr) (w : WriteLine) (k : Nat),
    (∃ reg v, writeRow c = some (w, reg, v)) ∨
      (∃ op device reg v, c = .frameForOtherDevice w op device reg v ∧ device ≠ s.mgmt.straps) ∨
      (∃ reg v, c = .invalidOpcodeFrame w reg v) →
    s.hunting → 16 ≤ w.line.ones → w.line.cut = some k → 1 ≤ k → k < 38 →
    ∃ rx : Receiver, rx.phase ≠ .hunt ∧ rx.timer = 0 ∧ rx.drive = none ∧ exec c s = .next (at_ s rx) ∧
      ∀ timer, 64 ≤ timer → exec .frameTimerExpiry (at_ s { rx with timer := timer }) = .next s.frameEnded) ∧
  (∀ (s : State) (c : Instr) (l : Line) (op : Nat) (field reg : BitVec 9) (k : Nat),
    readRow s c = some (l, op, field, reg) → s.hunting → 16 ≤ l.ones → l.cut = some k → 1 ≤ k → k < 38 →
    let a := s.readAccess reg.toNat
    let t := if k < 19 then s else a.2
    ∃ rx : Receiver, rx.phase ≠ .hunt ∧ rx.timer = 0 ∧ exec c s = .next (at_ t rx) ∧
      (k < 20 → rx.drive = none) ∧
      (k = 20 → rx.drive = some false) ∧
      (21 ≤ k → k < 37 → rx.drive = some (a.1.getLsbD (36 - k))) ∧
      (k = 37 → ∃ parity, rx.drive = some parity ∧
        (bits 2 op ++ bits 4 s.mgmt.straps.toNat ++ bits 9 field.toNat ++ bits 16 a.1.toNat ++ [parity]).count true % 2 = 0) ∧
      ∀ timer, 64 ≤ timer → exec .frameTimerExpiry (at_ t { rx with timer := timer }) = .next t.frameEnded) ∧
  ∀ rx : Receiver, rx.phase = .hunt ∨ rx.phase = .start ∨ rx.phase = .header → rx.drive = none

/-- R164: a READ of the low half of a pair. -/
def Obligations.PairLowReadCapturesAndClears : Prop :=
  ∀ (s : State) (l : Line) (p : Pair), l.wf = true → s.hunting →
    let reg := BitVec.ofNat 9 p.number
    let v := s.readPair p
    let low := BitVec.ofNat 16 v.toNat
    let t : State := { s.accessed reg (.capture p v) with out := s.out ++ [s.driven 1 reg low] }
    (p = .alertStat → exec (.readPairLow l reg) s = .next { t with alert := { s.alert with status := 0 } }) ∧
    (∀ c, (p, c) ∈ [(Pair.framesSent, Counter.framesSent), (.framesResent, .framesResent), (.jrnAllocs, .jrnAllocs),
        (.jrnMerges, .jrnMerges)] →
      exec (.readPairLow l reg) s = .next { t with stats := s.stats.set c 0 } ∧ (s.stats.get c < 2 ^ 32 →
        v.toNat = s.stats.get c) ∧ (s.stats.set c 0).get c = 0 ∧
        ∀ d, d ≠ c → (s.stats.set c 0).get d = s.stats.get d) ∧
    (p ∉ [Pair.alertStat, .framesSent, .framesResent, .jrnAllocs, .jrnMerges] →
      exec (.readPairLow l reg) s = .next t)

/-- R165: a READ of the high half of a pair. -/
def Obligations.PairHighReadUsesTheLatch : Prop :=
  ∀ (s : State) (l : Line) (p : Pair), l.wf = true → s.hunting →
    let reg := BitVec.ofNat 9 (p.number + 1)
    let high := fun v : Word32 => BitVec.ofNat 16 (v.toNat / 65536)
    let answer := fun (latch : Latch) (v : Word32) =>
      exec (.readPairHigh l reg) s = .next { s.accessed reg latch with out := s.out ++ [s.driven 1 reg (high v)] }
    (∀ v, s.mgmt.latch = .capture p v → answer (.capture p v) v) ∧
    (∀ v, s.mgmt.latch = .lowWritten p v → answer (.lowWritten p v) (s.readPair p)) ∧
    ((∀ v, s.mgmt.latch ≠ .capture p v) → (∀ v, s.mgmt.latch ≠ .lowWritten p v) → answer .invalid (s.readPair p))

/-- R166: WRITEs of the halves of a pair, for every pair: the low half parks, the high half commits. -/
def Obligations.PairWritesParkAndCommit : Prop :=
  ∀ (s : State) (w : WriteLine) (p : Pair) (v : Word16), w.good → s.hunting →
    let low := BitVec.ofNat 9 p.number
    let high := BitVec.ofNat 9 (p.number + 1)
    exec (.writePairLow w low v) s = .next (s.accessed low (.lowWritten p v)) ∧
    ∀ parked : Word16,
      s.mgmt.latch = .lowWritten p parked ∨
        ((∀ x, s.mgmt.latch ≠ .lowWritten p x) ∧ parked = BitVec.ofNat 16 (s.readPair p).toNat) →
      let whole : Word32 := v ++ parked
      let t := s.accessed high .invalid
      (p = .winStgBase → exec (.writePairHigh w high v) s = .next { t with win := { s.win with stgBase := whole } }) ∧
      (p = .alertStat → exec (.writePairHigh w high v) s = .next { t with alert := s.alert.testWrite whole }) ∧
      (p = .alertEn → exec (.writePairHigh w high v) s = .next { t with alert := s.alert.enable whole }) ∧
      (p = .alertDis → exec (.writePairHigh w high v) s = .next { t with alert := s.alert.disable whole }) ∧
      (p ∉ [Pair.winStgBase, .alertStat, .alertEn, .alertDis] → exec (.writePairHigh w high v) s = .next t)

/-- R177: the number of each event; R178, R179, R181, R182: the mask and the status, bit by bit, at a raise and at the committing
writes of ALERT_EN, ALERT_DIS and ALERT_STAT, and ALERT_N. -/
def Obligations.AlertMaskAndStatusWrites : Prop :=
  (∀ e : AlertEvent, e.number =
    match e with
    | .epochBegun => 0 | .captureDone => 1 | .epochCommitted => 2 | .epochBroken => 3 | .drainDone => 4 | .journalHigh => 5
    | .writeStall => 6 | .markerRefused => 7 | .freezeRefused => 8 | .memError => 9 | .drainLoss => 10 | .linkUp => 11
    | .linkDown => 12 | .linkRetry => 13 | .portProtocol => 14 | .mgmtFrameError => 15 | .cmdDone => 16) ∧
  (∀ (a : Alert) (e f : AlertEvent),
    (a.raise e).mask = a.mask ∧
    ((a.raise e).status.getLsbD f.number =
      (a.status.getLsbD f.number || (decide (f = e) && !a.mask.getLsbD e.number))) ∧
    (a.asserted = true ↔ ∃ g : AlertEvent, a.status.getLsbD g.number = true)) ∧
  (∀ (a : Alert) (v : Word32),
    (a.enable v).status = a.status ∧ (a.disable v).status = a.status ∧ (a.testWrite v).mask = a.mask ∧
    ∀ e : AlertEvent,
      (a.enable v).mask.getLsbD e.number = (a.mask.getLsbD e.number && !v.getLsbD e.number) ∧
      (a.disable v).mask.getLsbD e.number = (a.mask.getLsbD e.number || v.getLsbD e.number) ∧
      (a.testWrite v).status.getLsbD e.number = (a.status.getLsbD e.number || v.getLsbD e.number)) ∧
  ∀ (s : State) (w : WriteLine) (v : Word16), w.good → s.hunting →
    let whole := fun (p : Pair) (current : Word16) =>
      v ++ (match s.mgmt.latch with | .lowWritten q x => if q = p then x else current | _ => current)
    exec (.alertEnWrite w v) s = .next
      { s.accessed 0x015 .invalid with alert := s.alert.enable (whole .alertEn 0) } ∧
    exec (.alertDisWrite w v) s = .next
      { s.accessed 0x017 .invalid with alert := s.alert.disable (whole .alertDis 0) } ∧
    exec (.alertStatTestWrite w v) s = .next
      { s.accessed 0x011 .invalid with
        alert := s.alert.testWrite (whole .alertStat (BitVec.ofNat 16 s.alert.status.toNat)) }

/-- R184: a counter's event raises it by one up to the maximum of its width and leaves every other counter as it was (JRN_PEAK is
no count); R189: an occupancy offered to JRN_PEAK; R180, R185, R189: reads that clear: ALERT_STAT, the 8-bit and 16-bit
counters, and JRN_PEAK. -/
def Obligations.ReadsThatClear : Prop :=
  let wide := [Counter.framesSent, .framesResent, .jrnAllocs, .jrnMerges]
  let narrow := [Counter.markersRefused, .freezesRefused, .tagErrors, .drainLosses, .creditOverruns, .mgmtFrameErrors,
    .lockLosses]
  (∀ (t : Stats) (c d : Counter),
    (c ≠ .jrnPeak → (t.count c).get c =
      min (t.get c + 1) (if c ∈ wide then 4294967295 else if c ∈ narrow then 255 else 65535)) ∧
    (d ≠ c → (t.count c).get d = t.get d) ∧
    ∀ n : Nat, (t.set c n).get c = n ∧ (d ≠ c → (t.set c n).get d = t.get d) ∧
      (t.offerPeak n).get .jrnPeak = max (t.get .jrnPeak) n ∧ (d ≠ .jrnPeak → (t.offerPeak n).get d = t.get d)) ∧
  ∀ (s : State) (l : Line), l.wf = true → s.hunting →
    exec (.alertStatRead l) s = .next
      { s.accessed 0x010 (.capture .alertStat (s.alert.status.setWidth 32)) with
        alert := { s.alert with status := 0 }
        out := s.out ++ [s.driven 1 0x010 (BitVec.ofNat 16 s.alert.status.toNat)] } ∧
    exec (.jrnPeakRead l) s = .next
      { s.accessed 0x08E .invalid with
        stats := s.stats.set .jrnPeak s.jrn.entries.length
        out := s.out ++ [s.driven 1 0x08E (BitVec.ofNat 16 s.stats.jrnPeak)] } ∧
    ∀ (n : Nat) (c : Counter), (n, c) ∈ [(0x088, Counter.naksRcvd), (0x089, .ackTimeouts), (0x08A, .pausesRcvd),
        (0x08B, .badFramesRcvd), (0x08C, .epochsCommitted), (0x08D, .epochsBroken), (0x08F, .writeStalls),
        (0x090, .formatErrors), (0x091, .memReadErrors), (0x092, .memWriteErrors), (0x093, .markersRefused),
        (0x094, .freezesRefused), (0x095, .tagErrors), (0x096, .drainLosses), (0x097, .creditOverruns),
        (0x098, .mgmtFrameErrors), (0x099, .lockLosses)] →
      exec (.counterRead l (BitVec.ofNat 9 n)) s = .next
        { s.accessed (BitVec.ofNat 9 n) .invalid with
          stats := s.stats.set c 0
          out := s.out ++ [s.driven 1 (BitVec.ofNat 9 n) (BitVec.ofNat 16 (s.stats.get c))] }

/-- R158, R160, R163, R191, 10.4, 10.6: the register numbers of the map; every READ row is a read access of the register it
names, with the value driven and the parity bit that makes the count of ones even; a plain READ of a 16-bit register that
does not clear answers its value and changes the last-accessed register number and the wide-access latch alone, and an
unimplemented register reads 0; what each such register and each pair shows of the state, the status registers field by
field; and a READ_NEXT is a READ of the register after the last-accessed one, whatever its field holds. That COUNTER_READ
spells the plain READs is the model's (log 11). -/
def Obligations.PlainReadsAndReadNext : Prop :=
  let words : List (Nat × Reg) :=
    [(0x000, .cmd), (0x001, .cmdArg), (0x002, .cmdStat), (0x003, .mgmtStat), (0x004, .tickDiv), (0x020, .frzStat),
      (0x021, .frzCfg), (0x022, .stallLimit), (0x023, .epochLimit), (0x028, .histEpoch), (0x029, .histInfo),
      (0x02A, .histGran), (0x040, .jrnOcc), (0x041, .jrnStat), (0x042, .jrnCfg), (0x043, .jrnHwm), (0x044, .jrnLwm),
      (0x045, .drnFaultInfo), (0x048, .drnFaultEpoch), (0x052, .winStgSize), (0x053, .winStgCtl)] ++
    [(0x056, .mapCollCnt), (0x057, .mapImgCnt), (0x058, .capStat), (0x059, .capRemain), (0x060, .lnkStat),
      (0x061, .lnkPauseRem), (0x066, .lnkAckTmo), (0x067, .lnkRetryLim), (0x068, .lnkPauseLim), (0x076, .arbCfg),
      (0x088, .naksRcvd), (0x089, .ackTimeouts), (0x08A, .pausesRcvd), (0x08B, .badFramesRcvd), (0x08C, .epochsCommitted),
      (0x08D, .epochsBroken), (0x08E, .jrnPeak), (0x08F, .writeStalls), (0x090, .formatErrors), (0x091, .memReadErrors),
      (0x092, .memWriteErrors), (0x093, .markersRefused), (0x094, .freezesRefused), (0x095, .tagErrors),
      (0x096, .drainLosses), (0x097, .creditOverruns), (0x098, .mgmtFrameErrors), (0x099, .lockLosses)]
  let pairs : List (Nat × Pair) :=
    [(0x010, .alertStat), (0x012, .alertMask), (0x014, .alertEn), (0x016, .alertDis), (0x02C, .histSent),
      (0x02E, .histResent), (0x030, .histFdur), (0x032, .histDigest), (0x046, .drnFaultAddr), (0x050, .winStgBase),
      (0x054, .winStgMapoff), (0x062, .lnkAckpt), (0x064, .lnkSentcnt), (0x070, .spLaneStat), (0x072, .spListStat),
      (0x074, .memQStat), (0x080, .framesSent), (0x082, .framesResent), (0x084, .jrnAllocs), (0x086, .jrnMerges)]
  let bits := fun (k n : Nat) => (List.range k).map fun i => n.testBit (k - 1 - i)
  ((∀ n r, (n, r) ∈ words → r.number = n ∧ regAt n = .word r) ∧
    (∀ n p, (n, p) ∈ pairs → p.number = n ∧ regAt n = .low p ∧ regAt (n + 1) = .high p) ∧
    ∀ n : Nat, n ∉ words.map Prod.fst → n ∉ pairs.map Prod.fst → (∀ q ∈ pairs, n ≠ q.1 + 1) → regAt n = .unimplemented) ∧
  (∀ (s : State) (op : Nat) (field : BitVec 9) (v : Word16), ∃ parity, s.driven op field v = .mdaWord v parity ∧
    (bits 2 op ++ bits 4 s.mgmt.straps.toNat ++ bits 9 field.toNat ++ bits 16 v.toNat ++ [parity]).count true % 2 = 0) ∧
  (∀ (s : State) (c : Instr) (l : Line) (op : Nat) (field reg : BitVec 9), readRow s c = some (l, op, field, reg) →
    l.wf = true → s.hunting →
    let a := s.frameEnded.readAccess reg.toNat
    exec c s = .next { a.2 with out := s.out ++ [s.driven op field a.1] } ∧ a.2.mgmt.lastReg = reg) ∧
  (∀ (s : State) (l : Line) (field : BitVec 9), ∃ n, readRow s (.readNext l field) = some (l, 3, field, n) ∧
    (s.mgmt.lastReg = 511 → n = 0) ∧ (s.mgmt.lastReg ≠ 511 → n.toNat = s.mgmt.lastReg.toNat + 1)) ∧
  (∀ (s : State) (l : Line), l.wf = true → s.hunting →
    (∀ r : Reg, r.number < 0x088 ∨ 0x099 < r.number →
      let n := BitVec.ofNat 9 r.number
      exec (.counterRead l n) s = .next
        { s.accessed n .invalid with out := s.out ++ [s.driven 1 n (s.readReg r)] }) ∧
    ∀ n : BitVec 9, regAt n.toNat = .unimplemented →
      exec (.counterRead l n) s = .next { s.accessed n .invalid with out := s.out ++ [s.driven 1 n 0] }) ∧
  ∀ s : State,
    let bit := fun (b : Bool) => if b then 1 else 0
    let kind := fun k : Kind => match k with | .full => 1 | .delta => 2
    let source := fun q : Source => match q with | .mgmt => 1 | .line => 2 | .marker => 3
    s.readReg .cmdStat = BitVec.ofNat 16
      (bit s.mgmt.busy + 2 * bit s.mgmt.rejected +
        4 * (match s.mgmt.result with | .none => 0 | .ok => 1 | .refusedState => 2 | .refusedArgument => 3 | .cancelled => 4) +
        256 * s.mgmt.code) ∧
    s.readReg .frzStat = BitVec.ofNat 16
      ((match s.frz.st with | .idle => 0 | .frozen => 1 | .draining => 2) +
        4 * (match s.frz.history with
          | [] => 0
          | r :: _ => match r.state with | .capturing => 1 | .sending => 2 | .committed => 3 | .broken => 4) +
        (match s.frz.slot with | none => 0 | some q => 32 + 64 * source q.source + 256 * kind q.kind) +
        1024 * bit s.frz.baseline) ∧
    s.readReg .jrnStat = BitVec.ofNat 16
      (s.jrn.entries.countP (fun e => decide (e.st = .issued)) + 16 * bit s.jrn.armed +
        32 * bit (decide (s.frz.stall = some .exhaustion))) ∧
    s.readReg .capStat = BitVec.ofNat 16
      ((match s.cap.st with | .idle => 0 | .copying => 1 | .closing => 2) + 4 * bit (decide (s.cap.fence ≠ 0)) +
        256 * s.cap.stale) ∧
    s.readReg .lnkStat = BitVec.ofNat 16
      (bit s.lnk.up + 2 * (match s.lnk.ctl with | .idle => 0 | .sending => 1 | .tail => 2 | .awaitCommit => 3) +
        8 * bit (decide (s.lnk.pauseTimer ≠ 0)) + 16 * bit s.lnk.abandon.isSome + 32 * s.lnk.retry +
        512 * s.lnk.slots.length +
        16384 * (match s.lnk.lastReject with | .none => 0 | .noBaseline => 1 | .noSpace => 2 | .other => 3)) ∧
    s.readPair .spLaneStat = BitVec.ofNat 32
      (s.sp.rlane.length + 16 * s.sp.wlane.length + 256 * s.sp.rcred + 4096 * s.sp.wcred + 65536 * bit s.resetting) ∧
    s.readPair .spListStat = BitVec.ofNat 32
      (s.sp.reads.length + 64 * s.sp.writes.length +
        2048 * (s.sp.live.length + s.sp.writes.countP WriteRec.claimed) +
        65536 * bit (decide (s.sp.writes.countP WriteRec.claimed ≠ 0))) ∧
    s.readPair .memQStat = BitVec.ofNat 32
      (s.mp.queue.length + 64 * s.mp.queue.countP MemEntry.issued +
        2048 * (match s.mp.pos with | .live => 0 | .drain => 1 | .copier => 2) + 65536 * s.mp.grants) ∧
    s.readReg .drnFaultInfo = BitVec.ofNat 16
      (s.jrn.fault.block.toNat / 32 % 8 + 8 * s.jrn.fault.window + 256 * s.jrn.fault.count) ∧
    s.readPair .drnFaultAddr = BitVec.ofNat 32 (s.jrn.fault.block.toNat / 256) ∧
    s.readReg .drnFaultEpoch = s.jrn.fault.epoch ∧
    s.readReg .frzCfg = BitVec.ofNat 16 (kind s.frz.lineKind + 4 * kind s.frz.markerKind) ∧
    s.readReg .jrnCfg = BitVec.ofNat 16 (match s.jrn.policy with | .hold => 0 | .break_ => 1) ∧
    s.readReg .winStgCtl = BitVec.ofNat 16 (s.win.stgKind.toNat + 256 * s.win.stgFill.toNat) ∧
    s.readReg .arbCfg =
      BitVec.ofNat 16 (s.mp.cfg.live.toNat + 16 * s.mp.cfg.drain.toNat + 256 * s.mp.cfg.copier.toNat) ∧
    s.readReg .mgmtStat = BitVec.ofNat 16 s.mgmt.straps.toNat ∧ s.readReg .cmd = 0 ∧ s.readReg .cmdArg = s.mgmt.arg ∧
    s.readReg .tickDiv = s.mgmt.tickDiv ∧ s.readReg .stallLimit = s.frz.stallLimit ∧
    s.readReg .epochLimit = s.frz.epochLimit ∧ s.readReg .histEpoch = s.mgmt.hist.epoch ∧
    s.readReg .histInfo = s.mgmt.hist.info ∧ s.readReg .histGran = s.mgmt.hist.gran ∧
    s.readReg .jrnOcc = BitVec.ofNat 16 s.jrn.entries.length ∧ s.readReg .jrnHwm = s.jrn.hwm ∧
    s.readReg .jrnLwm = s.jrn.lwm ∧ s.readReg .winStgSize = s.win.stgSize ∧
    s.readReg .mapCollCnt = BitVec.ofNat 16 s.maps.coll.length ∧
    s.readReg .mapImgCnt = BitVec.ofNat 16 s.maps.img.length ∧ s.readReg .capRemain = BitVec.ofNat 16 s.cap.remain ∧
    s.readReg .lnkPauseRem = BitVec.ofNat 16 s.lnk.pauseTimer ∧ s.readReg .lnkAckTmo = s.lnk.ackTmo ∧
    s.readReg .lnkRetryLim = s.lnk.retryLim ∧ s.readReg .lnkPauseLim = s.lnk.pauseLim ∧
    s.readPair .alertStat = s.alert.status.setWidth 32 ∧ s.readPair .alertMask = s.alert.mask.setWidth 32 ∧
    s.readPair .alertEn = 0 ∧ s.readPair .alertDis = 0 ∧ s.readPair .histSent = s.mgmt.hist.sent ∧
    s.readPair .histResent = s.mgmt.hist.resent ∧ s.readPair .histFdur = s.mgmt.hist.fdur ∧
    s.readPair .histDigest = s.mgmt.hist.digest ∧ s.readPair .winStgBase = s.win.stgBase ∧
    s.readPair .winStgMapoff = s.win.stgMapoff ∧ s.readPair .lnkAckpt = BitVec.ofNat 32 s.lnk.ackPt ∧
    s.readPair .lnkSentcnt = BitVec.ofNat 32 s.lnk.sentCnt

/-- R40, R41, R54, R60, R168, R191: WRITE_REGISTER stores CMD_ARG and the staged size and control, and is discarded by every
read-only register and every number the map does not list; the watermarks and the drain fault record; R146, R192: ARB_CFG
applies whole or not at all and from the next round; TICK_DIV is stored and takes effect with the next tick. That the tick in
progress is a register of its own is the model's (log 14). -/
def Obligations.RegisterWrites : Prop :=
  (∀ (s : State) (w : WriteLine) (v : Word16), w.good → s.hunting →
    exec (.writeRegister w 0x001 v) s = .next
      { s.accessed 0x001 .invalid with mgmt := { (s.accessed 0x001 .invalid).mgmt with arg := v } } ∧
    exec (.writeRegister w 0x052 v) s = .next
      { s.accessed 0x052 .invalid with win := { s.win with stgSize := v } } ∧
    exec (.writeRegister w 0x053 v) s = .next
      { s.accessed 0x053 .invalid with
        win := { s.win with stgKind := BitVec.ofNat 2 v.toNat, stgFill := BitVec.ofNat 8 (v.toNat / 256) } } ∧
    (∀ reg : BitVec 9,
      regAt reg.toNat = .unimplemented ∨ (∃ r : Reg, regAt reg.toNat = .word r ∧
        r ∉ [Reg.cmd, .cmdArg, .tickDiv, .frzCfg, .stallLimit, .epochLimit, .jrnCfg, .jrnHwm, .jrnLwm, .drnFaultInfo,
          .winStgSize, .winStgCtl, .lnkAckTmo, .lnkRetryLim, .lnkPauseLim, .arbCfg]) →
      exec (.writeRegister w reg v) s = .next (s.accessed reg .invalid)) ∧
    exec (.jrnHwmWrite w v) s = .next
      { s.accessed 0x043 .invalid with
        jrn := { s.jrn with
          hwm := if 1 ≤ s.jrn.lwm.toNat ∧ s.jrn.lwm.toNat < v.toNat ∧ v.toNat ≤ 2048 then v else s.jrn.hwm } } ∧
    (1 ≤ v.toNat ∧ v.toNat < s.jrn.hwm.toNat ∧ s.jrn.hwm.toNat ≤ 2048 →
      exec (.jrnLwmWrite w v) s = .next
        { s.accessed 0x044 .invalid with
          jrn := { s.jrn with lwm := v, armed := s.jrn.armed || decide (s.jrn.entries.length ≤ v.toNat) } }) ∧
    (¬(1 ≤ v.toNat ∧ v.toNat < s.jrn.hwm.toNat ∧ s.jrn.hwm.toNat ≤ 2048) →
      exec (.jrnLwmWrite w v) s = .next (s.accessed 0x044 .invalid)) ∧
    exec (.drnFaultInfoWrite w v) s = .next
      { s.accessed 0x045 .invalid with
        jrn := { s.jrn with fault := { block := 0, window := 0, epoch := 0, count := 0 } } }) ∧
  (∀ (s : State) (w : WriteLine) (v : Word16), w.good → s.hunting →
    let live := BitVec.ofNat 4 v.toNat
    let drain := BitVec.ofNat 4 (v.toNat / 16)
    let copier := BitVec.ofNat 4 (v.toNat / 256)
    (live ≠ 0 → drain ≠ 0 → copier ≠ 0 → exec (.arbCfgWrite w v) s = .next
      { s.accessed 0x076 .invalid with mp := { s.mp with cfg := { live := live, drain := drain, copier := copier } } }) ∧
    (live = 0 ∨ drain = 0 ∨ copier = 0 → exec (.arbCfgWrite w v) s = .next (s.accessed 0x076 .invalid)) ∧
    (v ≠ 0 → exec (.tickDivWrite w v) s = .next
      { s.accessed 0x004 .invalid with mgmt := { (s.accessed 0x004 .invalid).mgmt with tickDiv := v } }) ∧
    (v = 0 → exec (.tickDivWrite w v) s = .next (s.accessed 0x004 .invalid))) ∧
  (∀ s : State, exec .tickDividerApplied s = .next { s with mgmt := { s.mgmt with tickLen := s.mgmt.tickDiv } }) ∧
  ∀ m : Mp, m.move.cfg = m.cfg ∧ m.move.grants = 0 ∧
    m.move.pos = (match m.pos with | .live => .drain | .drain => .copier | .copier => .live) ∧
    m.move.cur = (if m.pos = .copier then m.cfg else m.cur)

/-- R10, R14, R15, R103, R104, R105, R109, R156: what one tick advances, and the sample of FREEZE_REQ: a change from low to
high between two samples is one edge. That the tick which brings the pause timer to 0 ends the pause at once is the model's
(log 4), and so is the place of the edge's outcome within the tick, after the timers (log 5). -/
def Obligations.OneTick : Prop :=
  ∀ s : State,
    let advanced : State :=
      { s with
        frz := { s.frz with
          stallTimer := if s.frz.stall = none then s.frz.stallTimer else s.frz.stallTimer + 1
          epochTimer := if s.frz.capturing then s.frz.epochTimer + 1 else s.frz.epochTimer }
        lnk := { s.lnk with
          ackTimer :=
            if (∃ q ∈ s.lnk.slots, q.st = .sent) ∧ s.lnk.pauseTimer = 0 then s.lnk.ackTimer + 1 else s.lnk.ackTimer
          pauseTimer := s.lnk.pauseTimer - 1
          contPause :=
            if s.lnk.pauseTimer ≤ 1 then 0
            else if s.frz.active then s.lnk.contPause + 1 else s.lnk.contPause }
        mgmt := { s.mgmt with
          rx := { s.mgmt.rx with
            timer := if s.mgmt.rx.phase = .hunt then s.mgmt.rx.timer else s.mgmt.rx.timer + 1 } } }
    exec (.tick false) s = .next { advanced with frz := { advanced.frz with lineSeenLow := true } } ∧
    (s.frz.lineSeenLow = false → exec (.tick true) s = .next advanced) ∧
    (s.frz.lineSeenLow = true → exec (.tick true) s = exec .freezeReqEdge advanced)

end
end

