-- ==== Sys2Proof/Laws/State.lean ====
section
/-! SUPPORT. What each state update leaves in each field: one lemma per update and field, true by definition, so that no
proof unfolds a record update. -/

namespace Sys2Proof.Machine

/-! ### State.setRx -/

@[simp] theorem State.setRx_frz (s : State) (r : Receiver) : (s.setRx r).frz = s.frz := rfl
@[simp] theorem State.setRx_jrn (s : State) (r : Receiver) : (s.setRx r).jrn = s.jrn := rfl
@[simp] theorem State.setRx_win (s : State) (r : Receiver) : (s.setRx r).win = s.win := rfl
@[simp] theorem State.setRx_maps (s : State) (r : Receiver) : (s.setRx r).maps = s.maps := rfl
@[simp] theorem State.setRx_cap (s : State) (r : Receiver) : (s.setRx r).cap = s.cap := rfl
@[simp] theorem State.setRx_lnk (s : State) (r : Receiver) : (s.setRx r).lnk = s.lnk := rfl
@[simp] theorem State.setRx_sp (s : State) (r : Receiver) : (s.setRx r).sp = s.sp := rfl
@[simp] theorem State.setRx_mp (s : State) (r : Receiver) : (s.setRx r).mp = s.mp := rfl
@[simp] theorem State.setRx_mgmt (s : State) (r : Receiver) : (s.setRx r).mgmt = { s.mgmt with rx := r } := rfl
@[simp] theorem State.setRx_alert (s : State) (r : Receiver) : (s.setRx r).alert = s.alert := rfl
@[simp] theorem State.setRx_stats (s : State) (r : Receiver) : (s.setRx r).stats = s.stats := rfl
@[simp] theorem State.setRx_resetting (s : State) (r : Receiver) : (s.setRx r).resetting = s.resetting := rfl
@[simp] theorem State.setRx_pending (s : State) (r : Receiver) : (s.setRx r).pending = s.pending := rfl
@[simp] theorem State.setRx_out (s : State) (r : Receiver) : (s.setRx r).out = s.out := rfl

/-! ### State.setLatch -/

@[simp] theorem State.setLatch_frz (s : State) (l : Latch) : (s.setLatch l).frz = s.frz := rfl
@[simp] theorem State.setLatch_jrn (s : State) (l : Latch) : (s.setLatch l).jrn = s.jrn := rfl
@[simp] theorem State.setLatch_win (s : State) (l : Latch) : (s.setLatch l).win = s.win := rfl
@[simp] theorem State.setLatch_maps (s : State) (l : Latch) : (s.setLatch l).maps = s.maps := rfl
@[simp] theorem State.setLatch_cap (s : State) (l : Latch) : (s.setLatch l).cap = s.cap := rfl
@[simp] theorem State.setLatch_lnk (s : State) (l : Latch) : (s.setLatch l).lnk = s.lnk := rfl
@[simp] theorem State.setLatch_sp (s : State) (l : Latch) : (s.setLatch l).sp = s.sp := rfl
@[simp] theorem State.setLatch_mp (s : State) (l : Latch) : (s.setLatch l).mp = s.mp := rfl
@[simp] theorem State.setLatch_mgmt (s : State) (l : Latch) : (s.setLatch l).mgmt = { s.mgmt with latch := l } := rfl
@[simp] theorem State.setLatch_alert (s : State) (l : Latch) : (s.setLatch l).alert = s.alert := rfl
@[simp] theorem State.setLatch_stats (s : State) (l : Latch) : (s.setLatch l).stats = s.stats := rfl
@[simp] theorem State.setLatch_resetting (s : State) (l : Latch) : (s.setLatch l).resetting = s.resetting := rfl
@[simp] theorem State.setLatch_pending (s : State) (l : Latch) : (s.setLatch l).pending = s.pending := rfl
@[simp] theorem State.setLatch_out (s : State) (l : Latch) : (s.setLatch l).out = s.out := rfl

/-! ### State.raise -/

@[simp] theorem State.raise_frz (s : State) (e : AlertEvent) : (s.raise e).frz = s.frz := rfl
@[simp] theorem State.raise_jrn (s : State) (e : AlertEvent) : (s.raise e).jrn = s.jrn := rfl
@[simp] theorem State.raise_win (s : State) (e : AlertEvent) : (s.raise e).win = s.win := rfl
@[simp] theorem State.raise_maps (s : State) (e : AlertEvent) : (s.raise e).maps = s.maps := rfl
@[simp] theorem State.raise_cap (s : State) (e : AlertEvent) : (s.raise e).cap = s.cap := rfl
@[simp] theorem State.raise_lnk (s : State) (e : AlertEvent) : (s.raise e).lnk = s.lnk := rfl
@[simp] theorem State.raise_sp (s : State) (e : AlertEvent) : (s.raise e).sp = s.sp := rfl
@[simp] theorem State.raise_mp (s : State) (e : AlertEvent) : (s.raise e).mp = s.mp := rfl
@[simp] theorem State.raise_mgmt (s : State) (e : AlertEvent) : (s.raise e).mgmt = s.mgmt := rfl
@[simp] theorem State.raise_alert (s : State) (e : AlertEvent) : (s.raise e).alert = s.alert.raise e := rfl
@[simp] theorem State.raise_stats (s : State) (e : AlertEvent) : (s.raise e).stats = s.stats := rfl
@[simp] theorem State.raise_resetting (s : State) (e : AlertEvent) : (s.raise e).resetting = s.resetting := rfl
@[simp] theorem State.raise_pending (s : State) (e : AlertEvent) : (s.raise e).pending = s.pending := rfl
@[simp] theorem State.raise_out (s : State) (e : AlertEvent) : (s.raise e).out = s.out := rfl

/-! ### State.count -/

@[simp] theorem State.count_frz (s : State) (c : Counter) : (s.count c).frz = s.frz := rfl
@[simp] theorem State.count_jrn (s : State) (c : Counter) : (s.count c).jrn = s.jrn := rfl
@[simp] theorem State.count_win (s : State) (c : Counter) : (s.count c).win = s.win := rfl
@[simp] theorem State.count_maps (s : State) (c : Counter) : (s.count c).maps = s.maps := rfl
@[simp] theorem State.count_cap (s : State) (c : Counter) : (s.count c).cap = s.cap := rfl
@[simp] theorem State.count_lnk (s : State) (c : Counter) : (s.count c).lnk = s.lnk := rfl
@[simp] theorem State.count_sp (s : State) (c : Counter) : (s.count c).sp = s.sp := rfl
@[simp] theorem State.count_mp (s : State) (c : Counter) : (s.count c).mp = s.mp := rfl
@[simp] theorem State.count_mgmt (s : State) (c : Counter) : (s.count c).mgmt = s.mgmt := rfl
@[simp] theorem State.count_alert (s : State) (c : Counter) : (s.count c).alert = s.alert := rfl
@[simp] theorem State.count_stats (s : State) (c : Counter) : (s.count c).stats = s.stats.count c := rfl
@[simp] theorem State.count_resetting (s : State) (c : Counter) : (s.count c).resetting = s.resetting := rfl
@[simp] theorem State.count_pending (s : State) (c : Counter) : (s.count c).pending = s.pending := rfl
@[simp] theorem State.count_out (s : State) (c : Counter) : (s.count c).out = s.out := rfl

/-! ### State.emit -/

@[simp] theorem State.emit_frz (s : State) (o : Output) : (s.emit o).frz = s.frz := rfl
@[simp] theorem State.emit_jrn (s : State) (o : Output) : (s.emit o).jrn = s.jrn := rfl
@[simp] theorem State.emit_win (s : State) (o : Output) : (s.emit o).win = s.win := rfl
@[simp] theorem State.emit_maps (s : State) (o : Output) : (s.emit o).maps = s.maps := rfl
@[simp] theorem State.emit_cap (s : State) (o : Output) : (s.emit o).cap = s.cap := rfl
@[simp] theorem State.emit_lnk (s : State) (o : Output) : (s.emit o).lnk = s.lnk := rfl
@[simp] theorem State.emit_sp (s : State) (o : Output) : (s.emit o).sp = s.sp := rfl
@[simp] theorem State.emit_mp (s : State) (o : Output) : (s.emit o).mp = s.mp := rfl
@[simp] theorem State.emit_mgmt (s : State) (o : Output) : (s.emit o).mgmt = s.mgmt := rfl
@[simp] theorem State.emit_alert (s : State) (o : Output) : (s.emit o).alert = s.alert := rfl
@[simp] theorem State.emit_stats (s : State) (o : Output) : (s.emit o).stats = s.stats := rfl
@[simp] theorem State.emit_resetting (s : State) (o : Output) : (s.emit o).resetting = s.resetting := rfl
@[simp] theorem State.emit_pending (s : State) (o : Output) : (s.emit o).pending = s.pending := rfl
@[simp] theorem State.emit_out (s : State) (o : Output) : (s.emit o).out = s.out ++ [o] := rfl

/-! ### State.emptySlot -/

@[simp] theorem State.emptySlot_frz (s : State) : (s.emptySlot).frz = { s.frz with slot := none } := rfl
@[simp] theorem State.emptySlot_jrn (s : State) : (s.emptySlot).jrn = s.jrn := rfl
@[simp] theorem State.emptySlot_win (s : State) : (s.emptySlot).win = s.win := rfl
@[simp] theorem State.emptySlot_maps (s : State) : (s.emptySlot).maps = s.maps := rfl
@[simp] theorem State.emptySlot_cap (s : State) : (s.emptySlot).cap = s.cap := rfl
@[simp] theorem State.emptySlot_lnk (s : State) : (s.emptySlot).lnk = s.lnk := rfl
@[simp] theorem State.emptySlot_sp (s : State) : (s.emptySlot).sp = s.sp := rfl
@[simp] theorem State.emptySlot_mp (s : State) : (s.emptySlot).mp = s.mp := rfl
@[simp] theorem State.emptySlot_mgmt (s : State) : (s.emptySlot).mgmt = s.mgmt := rfl
@[simp] theorem State.emptySlot_alert (s : State) : (s.emptySlot).alert = s.alert := rfl
@[simp] theorem State.emptySlot_stats (s : State) : (s.emptySlot).stats = s.stats := rfl
@[simp] theorem State.emptySlot_resetting (s : State) : (s.emptySlot).resetting = s.resetting := rfl
@[simp] theorem State.emptySlot_pending (s : State) : (s.emptySlot).pending = s.pending := rfl
@[simp] theorem State.emptySlot_out (s : State) : (s.emptySlot).out = s.out := rfl

/-! ### State.completeCommand -/

@[simp] theorem State.completeCommand_frz (s : State) (r : CmdResult) : (s.completeCommand r).frz = s.frz := rfl
@[simp] theorem State.completeCommand_jrn (s : State) (r : CmdResult) : (s.completeCommand r).jrn = s.jrn := rfl
@[simp] theorem State.completeCommand_win (s : State) (r : CmdResult) : (s.completeCommand r).win = s.win := rfl
@[simp] theorem State.completeCommand_maps (s : State) (r : CmdResult) : (s.completeCommand r).maps = s.maps := rfl
@[simp] theorem State.completeCommand_cap (s : State) (r : CmdResult) : (s.completeCommand r).cap = s.cap := rfl
@[simp] theorem State.completeCommand_lnk (s : State) (r : CmdResult) : (s.completeCommand r).lnk = s.lnk := rfl
@[simp] theorem State.completeCommand_sp (s : State) (r : CmdResult) : (s.completeCommand r).sp = s.sp := rfl
@[simp] theorem State.completeCommand_mp (s : State) (r : CmdResult) : (s.completeCommand r).mp = s.mp := rfl
@[simp] theorem State.completeCommand_mgmt (s : State) (r : CmdResult) :
    (s.completeCommand r).mgmt = { s.mgmt with busy := false, result := r } := rfl
@[simp] theorem State.completeCommand_alert (s : State) (r : CmdResult) :
    (s.completeCommand r).alert = s.alert.raise .cmdDone := rfl
@[simp] theorem State.completeCommand_stats (s : State) (r : CmdResult) : (s.completeCommand r).stats = s.stats := rfl
@[simp] theorem State.completeCommand_resetting (s : State) (r : CmdResult) :
    (s.completeCommand r).resetting = s.resetting := rfl
@[simp] theorem State.completeCommand_pending (s : State) (r : CmdResult) : (s.completeCommand r).pending = s.pending := rfl
@[simp] theorem State.completeCommand_out (s : State) (r : CmdResult) : (s.completeCommand r).out = s.out := rfl

/-! ### State.popRead -/

@[simp] theorem State.popRead_frz (s : State) (o : List Output) : (s.popRead o).frz = s.frz := rfl
@[simp] theorem State.popRead_jrn (s : State) (o : List Output) : (s.popRead o).jrn = s.jrn := rfl
@[simp] theorem State.popRead_win (s : State) (o : List Output) : (s.popRead o).win = s.win := rfl
@[simp] theorem State.popRead_maps (s : State) (o : List Output) : (s.popRead o).maps = s.maps := rfl
@[simp] theorem State.popRead_cap (s : State) (o : List Output) : (s.popRead o).cap = s.cap := rfl
@[simp] theorem State.popRead_lnk (s : State) (o : List Output) : (s.popRead o).lnk = s.lnk := rfl
@[simp] theorem State.popRead_sp (s : State) (o : List Output) : (s.popRead o).sp = s.sp.popRead s.resetting := rfl
@[simp] theorem State.popRead_mp (s : State) (o : List Output) : (s.popRead o).mp = s.mp := rfl
@[simp] theorem State.popRead_mgmt (s : State) (o : List Output) : (s.popRead o).mgmt = s.mgmt := rfl
@[simp] theorem State.popRead_alert (s : State) (o : List Output) : (s.popRead o).alert = s.alert := rfl
@[simp] theorem State.popRead_stats (s : State) (o : List Output) : (s.popRead o).stats = s.stats := rfl
@[simp] theorem State.popRead_resetting (s : State) (o : List Output) : (s.popRead o).resetting = s.resetting := rfl
@[simp] theorem State.popRead_pending (s : State) (o : List Output) : (s.popRead o).pending = s.pending := rfl
@[simp] theorem State.popRead_out (s : State) (o : List Output) :
    (s.popRead o).out = s.out ++ o ++ creditOutput s.resetting .read := rfl

/-! ### State.popWrite -/

@[simp] theorem State.popWrite_frz (s : State) (o : List Output) : (s.popWrite o).frz = s.frz := rfl
@[simp] theorem State.popWrite_jrn (s : State) (o : List Output) : (s.popWrite o).jrn = s.jrn := rfl
@[simp] theorem State.popWrite_win (s : State) (o : List Output) : (s.popWrite o).win = s.win := rfl
@[simp] theorem State.popWrite_maps (s : State) (o : List Output) : (s.popWrite o).maps = s.maps := rfl
@[simp] theorem State.popWrite_cap (s : State) (o : List Output) : (s.popWrite o).cap = s.cap := rfl
@[simp] theorem State.popWrite_lnk (s : State) (o : List Output) : (s.popWrite o).lnk = s.lnk := rfl
@[simp] theorem State.popWrite_sp (s : State) (o : List Output) : (s.popWrite o).sp = s.sp.popWrite s.resetting := rfl
@[simp] theorem State.popWrite_mp (s : State) (o : List Output) : (s.popWrite o).mp = s.mp := rfl
@[simp] theorem State.popWrite_mgmt (s : State) (o : List Output) : (s.popWrite o).mgmt = s.mgmt := rfl
@[simp] theorem State.popWrite_alert (s : State) (o : List Output) : (s.popWrite o).alert = s.alert := rfl
@[simp] theorem State.popWrite_stats (s : State) (o : List Output) : (s.popWrite o).stats = s.stats := rfl
@[simp] theorem State.popWrite_resetting (s : State) (o : List Output) : (s.popWrite o).resetting = s.resetting := rfl
@[simp] theorem State.popWrite_pending (s : State) (o : List Output) : (s.popWrite o).pending = s.pending := rfl
@[simp] theorem State.popWrite_out (s : State) (o : List Output) :
    (s.popWrite o).out = s.out ++ o ++ creditOutput s.resetting .write := rfl

/-! ### State.leaveFrozen -/

@[simp] theorem State.leaveFrozen_frz (s : State) :
    (s.leaveFrozen).frz = { s.frz with st := if s.jrn.entries.isEmpty then .idle else .draining } := rfl
@[simp] theorem State.leaveFrozen_jrn (s : State) : (s.leaveFrozen).jrn = s.jrn.release := rfl
@[simp] theorem State.leaveFrozen_win (s : State) : (s.leaveFrozen).win = s.win := rfl
@[simp] theorem State.leaveFrozen_maps (s : State) : (s.leaveFrozen).maps = s.maps := rfl
@[simp] theorem State.leaveFrozen_cap (s : State) : (s.leaveFrozen).cap = s.cap := rfl
@[simp] theorem State.leaveFrozen_lnk (s : State) : (s.leaveFrozen).lnk = s.lnk := rfl
@[simp] theorem State.leaveFrozen_sp (s : State) : (s.leaveFrozen).sp = s.sp := rfl
@[simp] theorem State.leaveFrozen_mp (s : State) : (s.leaveFrozen).mp = s.mp := rfl
@[simp] theorem State.leaveFrozen_mgmt (s : State) : (s.leaveFrozen).mgmt = s.mgmt := rfl
@[simp] theorem State.leaveFrozen_alert (s : State) : (s.leaveFrozen).alert = s.alert := rfl
@[simp] theorem State.leaveFrozen_stats (s : State) : (s.leaveFrozen).stats = s.stats := rfl
@[simp] theorem State.leaveFrozen_resetting (s : State) : (s.leaveFrozen).resetting = s.resetting := rfl
@[simp] theorem State.leaveFrozen_pending (s : State) : (s.leaveFrozen).pending = s.pending := rfl
@[simp] theorem State.leaveFrozen_out (s : State) : (s.leaveFrozen).out = s.out := rfl

/-! ### State.setTable -/

@[simp] theorem State.setTable_frz (s : State) (table : List Window) :
    (s.setTable table).frz = { s.frz with baseline := false } := rfl
@[simp] theorem State.setTable_jrn (s : State) (table : List Window) : (s.setTable table).jrn = s.jrn := rfl
@[simp] theorem State.setTable_win (s : State) (table : List Window) :
    (s.setTable table).win = { s.win with table := table } := rfl
@[simp] theorem State.setTable_maps (s : State) (table : List Window) : (s.setTable table).maps = Maps.reset := rfl
@[simp] theorem State.setTable_cap (s : State) (table : List Window) : (s.setTable table).cap = s.cap := rfl
@[simp] theorem State.setTable_lnk (s : State) (table : List Window) : (s.setTable table).lnk = s.lnk := rfl
@[simp] theorem State.setTable_sp (s : State) (table : List Window) : (s.setTable table).sp = s.sp := rfl
@[simp] theorem State.setTable_mp (s : State) (table : List Window) : (s.setTable table).mp = s.mp := rfl
@[simp] theorem State.setTable_mgmt (s : State) (table : List Window) : (s.setTable table).mgmt = s.mgmt := rfl
@[simp] theorem State.setTable_alert (s : State) (table : List Window) : (s.setTable table).alert = s.alert := rfl
@[simp] theorem State.setTable_stats (s : State) (table : List Window) : (s.setTable table).stats = s.stats := rfl
@[simp] theorem State.setTable_resetting (s : State) (table : List Window) :
    (s.setTable table).resetting = s.resetting := rfl
@[simp] theorem State.setTable_pending (s : State) (table : List Window) : (s.setTable table).pending = s.pending := rfl
@[simp] theorem State.setTable_out (s : State) (table : List Window) : (s.setTable table).out = s.out := rfl

/-! ### State.beginStall -/

@[simp] theorem State.beginStall_frz (s : State) (k : StallKind) (w : WriteReq) :
    (s.beginStall k w).frz = { s.frz with stall := some k, stallTimer := 0 } := rfl
@[simp] theorem State.beginStall_jrn (s : State) (k : StallKind) (w : WriteReq) : (s.beginStall k w).jrn = s.jrn := rfl
@[simp] theorem State.beginStall_win (s : State) (k : StallKind) (w : WriteReq) : (s.beginStall k w).win = s.win := rfl
@[simp] theorem State.beginStall_maps (s : State) (k : StallKind) (w : WriteReq) : (s.beginStall k w).maps = s.maps := rfl
@[simp] theorem State.beginStall_cap (s : State) (k : StallKind) (w : WriteReq) : (s.beginStall k w).cap = s.cap := rfl
@[simp] theorem State.beginStall_lnk (s : State) (k : StallKind) (w : WriteReq) : (s.beginStall k w).lnk = s.lnk := rfl
@[simp] theorem State.beginStall_sp (s : State) (k : StallKind) (w : WriteReq) : (s.beginStall k w).sp = s.sp.claim w := rfl
@[simp] theorem State.beginStall_mp (s : State) (k : StallKind) (w : WriteReq) : (s.beginStall k w).mp = s.mp := rfl
@[simp] theorem State.beginStall_mgmt (s : State) (k : StallKind) (w : WriteReq) : (s.beginStall k w).mgmt = s.mgmt := rfl
@[simp] theorem State.beginStall_alert (s : State) (k : StallKind) (w : WriteReq) :
    (s.beginStall k w).alert = s.alert.raise .writeStall := rfl
@[simp] theorem State.beginStall_stats (s : State) (k : StallKind) (w : WriteReq) :
    (s.beginStall k w).stats = s.stats.count .writeStalls := rfl
@[simp] theorem State.beginStall_resetting (s : State) (k : StallKind) (w : WriteReq) :
    (s.beginStall k w).resetting = s.resetting := rfl
@[simp] theorem State.beginStall_pending (s : State) (k : StallKind) (w : WriteReq) :
    (s.beginStall k w).pending = s.pending := rfl
@[simp] theorem State.beginStall_out (s : State) (k : StallKind) (w : WriteReq) : (s.beginStall k w).out = s.out := rfl

/-! ### State.takeStraight -/

@[simp] theorem State.takeStraight_frz (s : State) (w : WriteReq) : (s.takeStraight w).frz = s.frz.endStall := rfl
@[simp] theorem State.takeStraight_jrn (s : State) (w : WriteReq) : (s.takeStraight w).jrn = s.jrn := rfl
@[simp] theorem State.takeStraight_win (s : State) (w : WriteReq) : (s.takeStraight w).win = s.win := rfl
@[simp] theorem State.takeStraight_maps (s : State) (w : WriteReq) :
    (s.takeStraight w).maps = s.maps.mark s.win.table w.addr := rfl
@[simp] theorem State.takeStraight_cap (s : State) (w : WriteReq) : (s.takeStraight w).cap = s.cap := rfl
@[simp] theorem State.takeStraight_lnk (s : State) (w : WriteReq) : (s.takeStraight w).lnk = s.lnk := rfl
@[simp] theorem State.takeStraight_sp (s : State) (w : WriteReq) :
    (s.takeStraight w).sp = (s.sp.straight w).popWrite s.resetting := rfl
@[simp] theorem State.takeStraight_mp (s : State) (w : WriteReq) : (s.takeStraight w).mp = s.mp := rfl
@[simp] theorem State.takeStraight_mgmt (s : State) (w : WriteReq) : (s.takeStraight w).mgmt = s.mgmt := rfl
@[simp] theorem State.takeStraight_alert (s : State) (w : WriteReq) : (s.takeStraight w).alert = s.alert := rfl
@[simp] theorem State.takeStraight_stats (s : State) (w : WriteReq) : (s.takeStraight w).stats = s.stats := rfl
@[simp] theorem State.takeStraight_resetting (s : State) (w : WriteReq) : (s.takeStraight w).resetting = s.resetting := rfl
@[simp] theorem State.takeStraight_pending (s : State) (w : WriteReq) : (s.takeStraight w).pending = s.pending := rfl
@[simp] theorem State.takeStraight_out (s : State) (w : WriteReq) :
    (s.takeStraight w).out = s.out ++ creditOutput s.resetting .write := rfl

/-! ### State.takeMerge -/

@[simp] theorem State.takeMerge_frz (s : State) (w : WriteReq) : (s.takeMerge w).frz = s.frz.endStall := rfl
@[simp] theorem State.takeMerge_jrn (s : State) (w : WriteReq) :
    (s.takeMerge w).jrn = s.jrn.update w.addr fun e => e.merge w.mask w.block32 := rfl
@[simp] theorem State.takeMerge_win (s : State) (w : WriteReq) : (s.takeMerge w).win = s.win := rfl
@[simp] theorem State.takeMerge_maps (s : State) (w : WriteReq) :
    (s.takeMerge w).maps = s.maps.mark s.win.table w.addr := rfl
@[simp] theorem State.takeMerge_cap (s : State) (w : WriteReq) : (s.takeMerge w).cap = s.cap := rfl
@[simp] theorem State.takeMerge_lnk (s : State) (w : WriteReq) : (s.takeMerge w).lnk = s.lnk := rfl
@[simp] theorem State.takeMerge_sp (s : State) (w : WriteReq) :
    (s.takeMerge w).sp = s.sp.releaseClaims.popWrite s.resetting := rfl
@[simp] theorem State.takeMerge_mp (s : State) (w : WriteReq) : (s.takeMerge w).mp = s.mp := rfl
@[simp] theorem State.takeMerge_mgmt (s : State) (w : WriteReq) : (s.takeMerge w).mgmt = s.mgmt := rfl
@[simp] theorem State.takeMerge_alert (s : State) (w : WriteReq) : (s.takeMerge w).alert = s.alert := rfl
@[simp] theorem State.takeMerge_stats (s : State) (w : WriteReq) : (s.takeMerge w).stats = s.stats.count .jrnMerges := rfl
@[simp] theorem State.takeMerge_resetting (s : State) (w : WriteReq) : (s.takeMerge w).resetting = s.resetting := rfl
@[simp] theorem State.takeMerge_pending (s : State) (w : WriteReq) : (s.takeMerge w).pending = s.pending := rfl
@[simp] theorem State.takeMerge_out (s : State) (w : WriteReq) :
    (s.takeMerge w).out = s.out ++ [.writeDone w.initiator w.tag .ok] ++ creditOutput s.resetting .write := rfl

/-! ### State.takeAllocate -/

@[simp] theorem State.takeAllocate_frz (s : State) (w : WriteReq) (i : Nat) :
    (s.takeAllocate w i).frz = s.frz.endStall := rfl
@[simp] theorem State.takeAllocate_jrn (s : State) (w : WriteReq) (i : Nat) :
    (s.takeAllocate w i).jrn = s.jrn.allocate (newEntry w i s.frz.epoch) := rfl
@[simp] theorem State.takeAllocate_win (s : State) (w : WriteReq) (i : Nat) : (s.takeAllocate w i).win = s.win := rfl
@[simp] theorem State.takeAllocate_maps (s : State) (w : WriteReq) (i : Nat) :
    (s.takeAllocate w i).maps = s.maps.mark s.win.table w.addr := rfl
@[simp] theorem State.takeAllocate_cap (s : State) (w : WriteReq) (i : Nat) : (s.takeAllocate w i).cap = s.cap := rfl
@[simp] theorem State.takeAllocate_lnk (s : State) (w : WriteReq) (i : Nat) : (s.takeAllocate w i).lnk = s.lnk := rfl
@[simp] theorem State.takeAllocate_sp (s : State) (w : WriteReq) (i : Nat) :
    (s.takeAllocate w i).sp = s.sp.releaseClaims.popWrite s.resetting := rfl
@[simp] theorem State.takeAllocate_mp (s : State) (w : WriteReq) (i : Nat) : (s.takeAllocate w i).mp = s.mp := rfl
@[simp] theorem State.takeAllocate_mgmt (s : State) (w : WriteReq) (i : Nat) : (s.takeAllocate w i).mgmt = s.mgmt := rfl
@[simp] theorem State.takeAllocate_alert (s : State) (w : WriteReq) (i : Nat) :
    (s.takeAllocate w i).alert = if s.jrn.raisesHigh then s.alert.raise .journalHigh else s.alert := rfl
@[simp] theorem State.takeAllocate_stats (s : State) (w : WriteReq) (i : Nat) :
    (s.takeAllocate w i).stats = (s.stats.count .jrnAllocs).offerPeak (s.jrn.occupancy + 1) := rfl
@[simp] theorem State.takeAllocate_resetting (s : State) (w : WriteReq) (i : Nat) :
    (s.takeAllocate w i).resetting = s.resetting := rfl
@[simp] theorem State.takeAllocate_pending (s : State) (w : WriteReq) (i : Nat) :
    (s.takeAllocate w i).pending = s.pending := rfl
@[simp] theorem State.takeAllocate_out (s : State) (w : WriteReq) (i : Nat) :
    (s.takeAllocate w i).out = s.out ++ [.writeDone w.initiator w.tag .ok] ++ creditOutput s.resetting .write := rfl

/-! ### State.breakCore -/

@[simp] theorem State.breakCore_frz (s : State) (c : BreakCause) :
    (s.breakCore c).frz = s.frz.update fun r => { r with state := .broken, cause := some c, duration := if s.frz.capturing then s.frz.durationNow else r.duration } := rfl
@[simp] theorem State.breakCore_jrn (s : State) (c : BreakCause) : (s.breakCore c).jrn = s.jrn := rfl
@[simp] theorem State.breakCore_win (s : State) (c : BreakCause) : (s.breakCore c).win = s.win := rfl
@[simp] theorem State.breakCore_maps (s : State) (c : BreakCause) : (s.breakCore c).maps = s.maps.orBack := rfl
@[simp] theorem State.breakCore_cap (s : State) (c : BreakCause) : (s.breakCore c).cap = s.cap.stop := rfl
@[simp] theorem State.breakCore_lnk (s : State) (c : BreakCause) :
    (s.breakCore c).lnk = s.lnk.breakEpoch s.frz.epoch c := rfl
@[simp] theorem State.breakCore_sp (s : State) (c : BreakCause) : (s.breakCore c).sp = s.sp := rfl
@[simp] theorem State.breakCore_mp (s : State) (c : BreakCause) : (s.breakCore c).mp = s.mp := rfl
@[simp] theorem State.breakCore_mgmt (s : State) (c : BreakCause) : (s.breakCore c).mgmt = s.mgmt := rfl
@[simp] theorem State.breakCore_alert (s : State) (c : BreakCause) :
    (s.breakCore c).alert = s.alert.raise .epochBroken := rfl
@[simp] theorem State.breakCore_stats (s : State) (c : BreakCause) :
    (s.breakCore c).stats = s.stats.count .epochsBroken := rfl
@[simp] theorem State.breakCore_resetting (s : State) (c : BreakCause) : (s.breakCore c).resetting = s.resetting := rfl
@[simp] theorem State.breakCore_pending (s : State) (c : BreakCause) : (s.breakCore c).pending = s.pending := rfl
@[simp] theorem State.breakCore_out (s : State) (c : BreakCause) : (s.breakCore c).out = s.out := rfl

/-! ### State.placeFill -/

@[simp] theorem State.placeFill_frz (s : State) (i : Nat) : (s.placeFill i).frz = s.frz := rfl
@[simp] theorem State.placeFill_jrn (s : State) (i : Nat) : (s.placeFill i).jrn = s.jrn := rfl
@[simp] theorem State.placeFill_win (s : State) (i : Nat) : (s.placeFill i).win = s.win := rfl
@[simp] theorem State.placeFill_maps (s : State) (i : Nat) : (s.placeFill i).maps = s.maps := rfl
@[simp] theorem State.placeFill_cap (s : State) (i : Nat) :
    (s.placeFill i).cap = { s.cap with pos := s.cap.pos + 1, fillBuilt := s.cap.fillBuilt + 1 } := rfl
@[simp] theorem State.placeFill_lnk (s : State) (i : Nat) :
    (s.placeFill i).lnk = s.lnk.place s.cap.pos (s.fillFrame i) := rfl
@[simp] theorem State.placeFill_sp (s : State) (i : Nat) : (s.placeFill i).sp = s.sp := rfl
@[simp] theorem State.placeFill_mp (s : State) (i : Nat) : (s.placeFill i).mp = s.mp := rfl
@[simp] theorem State.placeFill_mgmt (s : State) (i : Nat) : (s.placeFill i).mgmt = s.mgmt := rfl
@[simp] theorem State.placeFill_alert (s : State) (i : Nat) : (s.placeFill i).alert = s.alert := rfl
@[simp] theorem State.placeFill_stats (s : State) (i : Nat) : (s.placeFill i).stats = s.stats := rfl
@[simp] theorem State.placeFill_resetting (s : State) (i : Nat) : (s.placeFill i).resetting = s.resetting := rfl
@[simp] theorem State.placeFill_pending (s : State) (i : Nat) : (s.placeFill i).pending = s.pending := rfl
@[simp] theorem State.placeFill_out (s : State) (i : Nat) : (s.placeFill i).out = s.out := rfl

/-! ### State.placeEnd -/

@[simp] theorem State.placeEnd_frz (s : State) :
    (s.placeEnd).frz = s.frz.update fun r => { r with digest := some (crcFinal s.cap.digest) } := rfl
@[simp] theorem State.placeEnd_jrn (s : State) : (s.placeEnd).jrn = s.jrn := rfl
@[simp] theorem State.placeEnd_win (s : State) : (s.placeEnd).win = s.win := rfl
@[simp] theorem State.placeEnd_maps (s : State) : (s.placeEnd).maps = s.maps := rfl
@[simp] theorem State.placeEnd_cap (s : State) : (s.placeEnd).cap = { s.cap with st := .idle, pos := s.cap.pos + 1 } := rfl
@[simp] theorem State.placeEnd_lnk (s : State) : (s.placeEnd).lnk = s.lnk.place s.cap.pos s.endFrame := rfl
@[simp] theorem State.placeEnd_sp (s : State) : (s.placeEnd).sp = s.sp := rfl
@[simp] theorem State.placeEnd_mp (s : State) : (s.placeEnd).mp = s.mp := rfl
@[simp] theorem State.placeEnd_mgmt (s : State) : (s.placeEnd).mgmt = s.mgmt := rfl
@[simp] theorem State.placeEnd_alert (s : State) : (s.placeEnd).alert = s.alert := rfl
@[simp] theorem State.placeEnd_stats (s : State) : (s.placeEnd).stats = s.stats := rfl
@[simp] theorem State.placeEnd_resetting (s : State) : (s.placeEnd).resetting = s.resetting := rfl
@[simp] theorem State.placeEnd_pending (s : State) : (s.placeEnd).pending = s.pending := rfl
@[simp] theorem State.placeEnd_out (s : State) : (s.placeEnd).out = s.out := rfl

/-! ### State.advanceTimers -/

@[simp] theorem State.advanceTimers_frz (s : State) : s.advanceTimers.frz = s.frz.tick := rfl
@[simp] theorem State.advanceTimers_jrn (s : State) : s.advanceTimers.jrn = s.jrn := rfl
@[simp] theorem State.advanceTimers_win (s : State) : s.advanceTimers.win = s.win := rfl
@[simp] theorem State.advanceTimers_maps (s : State) : s.advanceTimers.maps = s.maps := rfl
@[simp] theorem State.advanceTimers_cap (s : State) : s.advanceTimers.cap = s.cap := rfl
@[simp] theorem State.advanceTimers_sp (s : State) : s.advanceTimers.sp = s.sp := rfl
@[simp] theorem State.advanceTimers_mp (s : State) : s.advanceTimers.mp = s.mp := rfl
@[simp] theorem State.advanceTimers_alert (s : State) : s.advanceTimers.alert = s.alert := rfl
@[simp] theorem State.advanceTimers_stats (s : State) : s.advanceTimers.stats = s.stats := rfl
@[simp] theorem State.advanceTimers_resetting (s : State) : s.advanceTimers.resetting = s.resetting := rfl
@[simp] theorem State.advanceTimers_pending (s : State) : s.advanceTimers.pending = s.pending := rfl
@[simp] theorem State.advanceTimers_out (s : State) : s.advanceTimers.out = s.out := rfl
@[simp] theorem State.advanceTimers_lnk (s : State) : s.advanceTimers.lnk = s.lnk.tick s.frz.active := rfl
@[simp] theorem State.advanceTimers_mgmt (s : State) :
    s.advanceTimers.mgmt = { s.mgmt with rx := s.mgmt.rx.tick } := rfl

end Sys2Proof.Machine
end

