-- ==== Sys2Proof/Laws/Epoch.lean ====
section
/-! SUPPORT. What the events of an epoch (the takes of a stalled write, freeze points, breaks, commits, the evaluation of the
slot) never touch, said once: one lemma per operation, each a chain of the ones before it. -/

namespace Sys2Proof.Machine

/-- What no event of an epoch touches: `t` has it as `s` has it. -/
structure State.Undisturbed (s t : State) : Prop where
  lineKind : t.frz.lineKind = s.frz.lineKind
  markerKind : t.frz.markerKind = s.frz.markerKind
  stallLimit : t.frz.stallLimit = s.frz.stallLimit
  epochLimit : t.frz.epochLimit = s.frz.epochLimit
  lineSeenLow : t.frz.lineSeenLow = s.frz.lineSeenLow
  hwm : t.jrn.hwm = s.jrn.hwm
  lwm : t.jrn.lwm = s.jrn.lwm
  policy : t.jrn.policy = s.jrn.policy
  fault : t.jrn.fault = s.jrn.fault
  win : t.win = s.win
  up : t.lnk.up = s.lnk.up
  pauseTimer : t.lnk.pauseTimer = s.lnk.pauseTimer
  tx : t.lnk.tx = s.lnk.tx
  ackTmo : t.lnk.ackTmo = s.lnk.ackTmo
  retryLim : t.lnk.retryLim = s.lnk.retryLim
  pauseLim : t.lnk.pauseLim = s.lnk.pauseLim
  lastReject : t.lnk.lastReject = s.lnk.lastReject
  rlane : t.sp.rlane = s.sp.rlane
  rcred : t.sp.rcred = s.sp.rcred
  rheld : t.sp.rheld = s.sp.rheld
  reads : t.sp.reads = s.sp.reads
  mp : t.mp = s.mp
  rx : t.mgmt.rx = s.mgmt.rx
  lastReg : t.mgmt.lastReg = s.mgmt.lastReg
  latch : t.mgmt.latch = s.mgmt.latch
  arg : t.mgmt.arg = s.mgmt.arg
  code : t.mgmt.code = s.mgmt.code
  rejected : t.mgmt.rejected = s.mgmt.rejected
  hist : t.mgmt.hist = s.mgmt.hist
  straps : t.mgmt.straps = s.mgmt.straps
  tickDiv : t.mgmt.tickDiv = s.mgmt.tickDiv
  tickLen : t.mgmt.tickLen = s.mgmt.tickLen
  alertMask : t.alert.mask = s.alert.mask
  resetting : t.resetting = s.resetting
  pending : t.pending = s.pending

theorem State.Undisturbed.refl (s : State) : s.Undisturbed s := by constructor <;> rfl

theorem State.Undisturbed.trans {s t u : State} (h : s.Undisturbed t) (k : t.Undisturbed u) : s.Undisturbed u := by
  constructor
  all_goals first
    | exact k.lineKind.trans h.lineKind | exact k.markerKind.trans h.markerKind | exact k.stallLimit.trans h.stallLimit
    | exact k.epochLimit.trans h.epochLimit | exact k.lineSeenLow.trans h.lineSeenLow | exact k.hwm.trans h.hwm
    | exact k.lwm.trans h.lwm | exact k.policy.trans h.policy | exact k.fault.trans h.fault | exact k.win.trans h.win
    | exact k.up.trans h.up | exact k.pauseTimer.trans h.pauseTimer | exact k.tx.trans h.tx
    | exact k.ackTmo.trans h.ackTmo | exact k.retryLim.trans h.retryLim | exact k.pauseLim.trans h.pauseLim
    | exact k.lastReject.trans h.lastReject | exact k.rlane.trans h.rlane | exact k.rcred.trans h.rcred
    | exact k.rheld.trans h.rheld | exact k.reads.trans h.reads | exact k.mp.trans h.mp | exact k.rx.trans h.rx
    | exact k.lastReg.trans h.lastReg | exact k.latch.trans h.latch | exact k.arg.trans h.arg
    | exact k.code.trans h.code | exact k.rejected.trans h.rejected | exact k.hist.trans h.hist
    | exact k.straps.trans h.straps | exact k.tickDiv.trans h.tickDiv | exact k.tickLen.trans h.tickLen
    | exact k.alertMask.trans h.alertMask | exact k.resetting.trans h.resetting | exact k.pending.trans h.pending

@[simp] theorem Alert.raise_mask (a : Alert) (e : AlertEvent) : (a.raise e).mask = a.mask := by
  unfold Alert.raise; split <;> rfl

/-! ### Takes and stalls -/

theorem State.undisturbed_raise (s : State) (e : AlertEvent) : s.Undisturbed (s.raise e) := by
  constructor <;> first | rfl | exact Alert.raise_mask _ _

theorem State.undisturbed_count (s : State) (c : Counter) : s.Undisturbed (s.count c) := by constructor <;> rfl

theorem State.undisturbed_emptySlot (s : State) : s.Undisturbed s.emptySlot := by constructor <;> rfl

theorem State.undisturbed_completeCommand (s : State) (r : CmdResult) : s.Undisturbed (s.completeCommand r) := by
  constructor <;> first | rfl | exact Alert.raise_mask _ _

theorem State.undisturbed_takeStraight (s : State) (w : WriteReq) : s.Undisturbed (s.takeStraight w) := by
  constructor <;> rfl

theorem State.undisturbed_takeMerge (s : State) (w : WriteReq) : s.Undisturbed (s.takeMerge w) := by constructor <;> rfl

theorem State.undisturbed_takeAllocate (s : State) (w : WriteReq) (i : Nat) : s.Undisturbed (s.takeAllocate w i) := by
  constructor
  case alertMask => simp only [State.takeAllocate]; split <;> simp
  all_goals rfl

theorem State.undisturbed_takePlain (s : State) (w : WriteReq) : s.Undisturbed (s.takePlain w) := by
  unfold State.takePlain
  split
  · exact s.undisturbed_takeMerge w
  · exact s.undisturbed_takeAllocate w _
  · exact s.undisturbed_takeStraight w
  · exact s.undisturbed_takeStraight w

theorem State.undisturbed_endStallWith (s : State) (take : State → WriteReq → State)
    (h : ∀ w, s.Undisturbed (take s w)) : s.Undisturbed (s.endStallWith take) := by
  unfold State.endStallWith
  split
  · exact h _
  · constructor <;> rfl

theorem State.undisturbed_beginStall (s : State) (k : StallKind) (w : WriteReq) : s.Undisturbed (s.beginStall k w) := by
  constructor <;> first | rfl | exact Alert.raise_mask _ _

/-! ### Freeze points, capture complete, breaks and commits -/

theorem State.undisturbed_leaveFrozen (s : State) : s.Undisturbed s.leaveFrozen := by constructor <;> rfl

theorem State.undisturbed_endExhaustion (s : State) : s.Undisturbed s.endExhaustion := by
  unfold State.endExhaustion
  split
  · exact s.undisturbed_endStallWith _ s.undisturbed_takeStraight
  · exact .refl s

theorem State.undisturbed_captureComplete (s : State) : s.Undisturbed s.captureComplete := by
  refine .trans ?_ (State.undisturbed_endExhaustion _)
  constructor <;> first | rfl | exact Alert.raise_mask _ _

theorem State.undisturbed_placeFill (s : State) (i : Nat) : s.Undisturbed (s.placeFill i) := by constructor <;> rfl

theorem State.undisturbed_placeFills (k : Nat) (s : State) : s.Undisturbed (State.placeFills k s) := by
  induction k generalizing s with
  | zero => exact .refl s
  | succ k ih =>
    unfold State.placeFills
    split
    · split
      · exact (s.undisturbed_placeFill _).trans (ih _)
      · exact .refl s
    · exact .refl s

theorem State.undisturbed_beginEpoch (s : State) (src : Source) (k : Kind) : s.Undisturbed (s.beginEpoch src k) := by
  refine .trans ?_ (State.undisturbed_raise _ _)
  refine .trans ?_ (State.undisturbed_placeFills _ _)
  constructor <;> rfl

theorem State.undisturbed_freezePoint (s : State) (src : Source) (k : Kind) : s.Undisturbed (s.freezePoint src k) := by
  unfold State.freezePoint
  simp only
  split
  · exact s.undisturbed_beginEpoch src k
  · exact (s.undisturbed_beginEpoch src k).trans (State.undisturbed_captureComplete _)

theorem State.undisturbed_takeEffect (s : State) (q : FreezeReq) : s.Undisturbed (s.takeEffect q) := by
  have he := s.undisturbed_emptySlot
  unfold State.takeEffect
  split
  · exact (he.trans (State.undisturbed_freezePoint _ _ _)).trans (State.undisturbed_completeCommand _ _)
  · exact he.trans (State.undisturbed_freezePoint _ _ _)
  · exact (he.trans (State.undisturbed_endStallWith _ _ (State.undisturbed_takeStraight _))).trans
      (State.undisturbed_freezePoint _ _ _)

theorem State.undisturbed_evaluate (s : State) : s.Undisturbed s.evaluate := by
  unfold State.evaluate
  split
  · split
    · exact s.undisturbed_takeEffect _
    · exact .refl s
  · exact .refl s

theorem State.undisturbed_cancelSlot (s : State) : s.Undisturbed s.cancelSlot := by
  have he := s.undisturbed_emptySlot
  unfold State.cancelSlot
  split
  · exact .refl s
  · split
    · exact he.trans (State.undisturbed_endStallWith _ _ (State.undisturbed_takePlain _))
    · exact he
    · exact he

theorem State.undisturbed_breakCore (s : State) (c : BreakCause) : s.Undisturbed (s.breakCore c) := by
  constructor <;> first | rfl | exact Alert.raise_mask _ _

theorem State.undisturbed_breakNow (s : State) (c : BreakCause) : s.Undisturbed (s.breakNow c) := by
  unfold State.breakNow
  split
  · exact ((s.undisturbed_breakCore c).trans (State.undisturbed_leaveFrozen _)).trans (State.undisturbed_endExhaustion _)
  · exact s.undisturbed_breakCore c

theorem State.undisturbed_breakEpoch (s : State) (c : BreakCause) : s.Undisturbed (s.breakEpoch c) := by
  unfold State.breakEpoch
  split
  · exact (s.undisturbed_breakNow c).trans (State.undisturbed_evaluate _)
  · exact .refl s

theorem State.undisturbed_stallExpire (s : State) : s.Undisturbed s.stallExpire := by
  unfold State.stallExpire
  split
  · exact (((s.undisturbed_emptySlot).trans (State.undisturbed_endStallWith _ _ (State.undisturbed_takePlain _))).trans
      (State.undisturbed_raise _ _)).trans (State.undisturbed_count _ _)
  · exact s.undisturbed_breakEpoch _
  · exact .refl s

theorem State.undisturbed_endDrain (s : State) : s.Undisturbed s.endDrain := by
  unfold State.endDrain
  split
  · refine .trans ?_ (State.undisturbed_evaluate _)
    constructor <;> first | rfl | exact Alert.raise_mask _ _
  · exact .refl s

theorem State.undisturbed_exhaust (s : State) (w : WriteReq) : s.Undisturbed (s.exhaust w) := by
  unfold State.exhaust
  split
  · exact (s.undisturbed_breakEpoch _).trans (State.undisturbed_takeStraight _ _)
  · exact s.undisturbed_beginStall _ _

/-! ### Samples of FREEZE_REQ (R10) -/

/-- A low sample is remembered. -/
theorem State.sampleLine_low (s : State) :
    s.sampleLine false = { s with frz := { s.frz with lineSeenLow := true } } := rfl

/-- A high sample after a high one changes nothing. -/
theorem State.sampleLine_still_high (s : State) (h : s.frz.lineSeenLow = false) : s.sampleLine true = s := by
  have e : (true && s.frz.lineSeenLow) = false := h
  have f : { s.frz with lineSeenLow := !true } = s.frz := by rw [show (!true) = s.frz.lineSeenLow from h.symm]
  unfold State.sampleLine
  simp only
  rw [if_neg (by simp [e]), f]

/-- A high sample after a low one is an edge. -/
theorem State.sampleLine_edge (s : State) (h : s.frz.lineSeenLow = true) :
    s.sampleLine true = State.lineRequest { s with frz := { s.frz with lineSeenLow := false } } := by
  have e : (true && s.frz.lineSeenLow) = true := h
  unfold State.sampleLine
  simp only
  rw [if_pos e]
  rfl

end Sys2Proof.Machine
end

