-- ==== Sys2Proof/Laws/ManagementFrames.lean ====
section
/-! SUPPORT. What a whole management frame does: the bits of a frame that begins while the receiver hunts, followed to the
frame's end (08 R155 to R160). A later proof cites `sendWrite_good`, `sendWrite_bad`, `sendRead_eq` and their like, and
never unfolds the receiver. -/

namespace Sys2Proof.Machine

/-! ### Bits and numbers -/

@[simp] theorem length_lsbBits (k n : Nat) : (lsbBits k n).length = k := by
  induction k generalizing n with
  | zero => rfl
  | succ k ih => simp [lsbBits, ih]

@[simp] theorem length_msbBits (k n : Nat) : (msbBits k n).length = k := by simp [msbBits]

theorem bitsValue_lsbBits (k n : Nat) (rest : List Bool) :
    bitsValue (lsbBits k n ++ rest) = n % 2 ^ k + 2 ^ k * bitsValue rest := by
  induction k generalizing n with
  | zero => simp [lsbBits, Nat.mod_one]
  | succ k ih =>
    have hb : (decide (n % 2 = 1)).toNat = n % 2 := by
      rcases Nat.mod_two_eq_zero_or_one n with h | h <;> simp [h]
    have hm : n % 2 ^ (k + 1) = n % 2 + 2 * (n / 2 % 2 ^ k) := by
      rw [Nat.pow_succ, Nat.mul_comm (2 ^ k) 2, Nat.mod_mul]
    simp only [lsbBits, List.cons_append, bitsValue, ih, hb, hm]
    ring

theorem bitsValue_lsbBits_nil (k n : Nat) : bitsValue (lsbBits k n) = n % 2 ^ k := by
  have h := bitsValue_lsbBits k n []
  simpa [bitsValue] using h

theorem lsbBits_eq (k n : Nat) : lsbBits k n = (List.range k).map fun i => n.testBit i := by
  induction k generalizing n with
  | zero => rfl
  | succ k ih =>
    rw [lsbBits, ih, List.range_succ_eq_map, List.map_cons, List.map_map]
    congr 1
    · simp [Nat.testBit_zero]
    · exact List.map_congr_left fun i _ => by simp [Nat.testBit_succ]

/-- The bits of a field as they are sent, the most significant first (10.2). -/
theorem msbBits_eq (k n : Nat) : msbBits k n = (List.range k).map fun i => n.testBit (k - 1 - i) := by
  apply List.ext_getElem
  · simp
  · intro i h1 h2
    simp [msbBits, lsbBits_eq, List.getElem_reverse]

/-! ### Feeding bits -/

@[simp] theorem State.setRx_setRx (s : State) (r r' : Receiver) : (s.setRx r).setRx r' = s.setRx r' := rfl

theorem State.feed_append (s : State) (as bs : List Bool) : s.feed (as ++ bs) = (s.feed as).feed bs := by
  simp [State.feed]

theorem State.feed_cons (s : State) (b : Bool) (bs : List Bool) : s.feed (b :: bs) = (s.sampleBit b).feed bs := rfl

@[simp] theorem State.feed_nil (s : State) : s.feed [] = s := rfl

/-- R155: ones sampled in HUNT raise the count. -/
theorem State.feed_ones (s : State) (n : Nat) (h : s.mgmt.rx.phase = .hunt) :
    s.feed (List.replicate n true) = s.setRx { s.mgmt.rx with ones := s.mgmt.rx.ones + n } := by
  induction n generalizing s with
  | zero => rfl
  | succ n ih =>
    have hs : s.sampleBit true = s.setRx { s.mgmt.rx with ones := s.mgmt.rx.ones + 1 } := by simp [State.sampleBit, h]
    rw [List.replicate_succ, State.feed_cons, hs, ih _ (by simpa using h)]
    simp [Nat.add_assoc, Nat.add_comm 1 n]

/-- The receiver at the beginning of the header. -/
def Receiver.inHeader (bits : List Bool) : Receiver :=
  { phase := .header, ones := 0, bits := bits, role := .unknown, timer := 0 }

/-- R155: the start field after a full preamble leads into HEADER. -/
theorem State.feed_start (s : State) (h : s.mgmt.rx.phase = .hunt) (ho : 16 ≤ s.mgmt.rx.ones) :
    s.feed startField = s.setRx (Receiver.inHeader []) := by
  have h1 : s.sampleBit false = s.setRx { phase := .start, ones := 0, bits := [false], role := .unknown, timer := 0 } := by
    simp [State.sampleBit, h, Config.preambleOnes, ho]
  rw [startField, State.feed_cons, h1]
  simp [State.feed_cons, State.sampleBit, startBit, Receiver.push, Receiver.inHeader]

theorem State.feed_header (s : State) (acc bs : List Bool) (h : acc.length + bs.length ≤ 14) :
    (s.setRx (Receiver.inHeader acc)).feed bs = s.setRx (Receiver.inHeader (bs.reverse ++ acc)) := by
  induction bs generalizing acc with
  | nil => rfl
  | cons b bs ih =>
    simp only [List.length_cons] at h
    have hs : (s.setRx (Receiver.inHeader acc)).sampleBit b = s.setRx (Receiver.inHeader (b :: acc)) := by
      have : acc.length < 14 := by omega
      simp [State.sampleBit, Receiver.inHeader, this, Receiver.push]
    rw [State.feed_cons, hs, ih _ (by simp only [List.length_cons]; omega)]
    simp

/-- R155, R157: fifteen header bits are sampled, the last of them leading to the decision of R157. -/
theorem State.feed_whole_header (s : State) (bs : List Bool) (h : bs.length = 15) :
    (s.setRx (Receiver.inHeader [])).feed bs = (s.setRx (Receiver.inHeader (bs.reverse.tail))).headerDone bs.reverse := by
  obtain ⟨b, hb⟩ : ∃ b, bs = bs.dropLast ++ [b] := ⟨bs.getLast (by intro h0; simp [h0] at h),
    (List.dropLast_append_getLast _).symm⟩
  rw [hb] at h ⊢
  generalize bs.dropLast = as at h ⊢
  simp only [List.length_append, List.length_cons, List.length_nil] at h
  have ha : as.length = 14 := by omega
  rw [State.feed_append, State.feed_header _ _ _ (by simp [ha])]
  simp [State.feed_cons, State.sampleBit, Receiver.inHeader, ha]

/-- The receiver's state after `k` bits of a frame, the header included. -/
def phaseAfter (k : Nat) : RxPhase := if k < 17 then .turnaround else if k < 33 then .data else .parity

/-- The receiver inside a frame after its header. -/
def Receiver.inFrame (bits : List Bool) (role : RxRole) : Receiver :=
  { phase := phaseAfter bits.length, ones := 0, bits := bits, role := role, timer := 0 }

theorem State.feed_frame (s : State) (role : RxRole) (acc bs : List Bool) (h : acc.length + bs.length ≤ 33) :
    (s.setRx (Receiver.inFrame acc role)).feed bs = s.setRx (Receiver.inFrame (bs.reverse ++ acc) role) := by
  induction bs generalizing acc with
  | nil => rfl
  | cons b bs ih =>
    simp only [List.length_cons] at h
    have hs : (s.setRx (Receiver.inFrame acc role)).sampleBit b = s.setRx (Receiver.inFrame (b :: acc) role) := by
      have hn : acc.length < 33 := by omega
      have e17 : acc.length + 1 < 17 ↔ acc.length < 16 := by omega
      have e33 : acc.length + 1 < 33 ↔ acc.length < 32 := by omega
      by_cases h2 : acc.length < 17
      · have h32 : acc.length < 32 := by omega
        simp [State.sampleBit, Receiver.inFrame, phaseAfter, h2, e17, e33, h32, Receiver.push]
      · have h16 : ¬ acc.length < 16 := by omega
        simp [State.sampleBit, Receiver.inFrame, phaseAfter, h2, e17, e33, h16, hn, Receiver.push]
    rw [State.feed_cons, hs, ih _ (by simp only [List.length_cons]; omega)]
    simp

/-- R155: the 19 bits after a header end the frame. -/
theorem State.feed_body (s : State) (role : RxRole) (acc bs : List Bool) (ha : acc.length = 15) (h : bs.length = 19) :
    (s.setRx (Receiver.follow acc role)).feed bs =
      (s.setRx (Receiver.inFrame (bs.reverse.tail ++ acc) role)).frameDone role (bs.reverse ++ acc) := by
  obtain ⟨b, hb⟩ : ∃ b, bs = bs.dropLast ++ [b] := ⟨bs.getLast (by intro h0; simp [h0] at h),
    (List.dropLast_append_getLast _).symm⟩
  rw [hb] at h ⊢
  generalize bs.dropLast = as at h ⊢
  simp only [List.length_append, List.length_cons, List.length_nil] at h
  have hs : as.length = 18 := by omega
  have hf : Receiver.follow acc role = Receiver.inFrame acc role := by
    simp [Receiver.follow, Receiver.inFrame, phaseAfter, ha]
  rw [hf, State.feed_append, State.feed_frame _ _ _ _ (by omega)]
  simp [State.feed_cons, State.sampleBit, Receiver.inFrame, phaseAfter, ha, hs]

/-- The end of a frame does not depend on what the receiver held. -/
theorem State.frameDone_setRx (s : State) (r : Receiver) (role : RxRole) (bits : List Bool) :
    (s.setRx r).frameDone role bits = s.frameDone role bits := rfl

/-- R155: what arrives of a whole frame after a full preamble. -/
theorem State.feed_line (s : State) (l : Line) (header body : List Bool) (hl : l.wf = true)
    (h : s.mgmt.rx.phase = .hunt) (hh : header.length = 15) :
    s.feed (lineBits l (startField ++ (header ++ body))) =
      ((s.setRx (Receiver.inHeader header.reverse.tail)).headerDone header.reverse).feed body := by
  simp only [Line.wf, Bool.and_eq_true, decide_eq_true_eq, Option.isNone_iff_eq_none] at hl
  obtain ⟨ho, hc⟩ := hl
  have ho' : 16 ≤ l.ones := ho
  rw [lineBits, hc]
  simp only
  rw [State.feed_append, State.feed_ones s _ h, State.feed_append, State.feed_start _ (by simpa using h)
    (by simp only [State.setRx_mgmt]; omega), State.setRx_setRx, State.feed_append, State.feed_whole_header _ _ hh]

/-! ### Headers -/

@[simp] theorem length_headerBits (op : Nat) (d : BitVec 4) (reg : BitVec 9) : (headerBits op d reg).length = 15 := by
  simp [headerBits]

theorem bitsValue_headerBits (op : Nat) (d : BitVec 4) (reg : BitVec 9) :
    bitsValue (headerBits op d reg).reverse = reg.toNat + 512 * (d.toNat + 16 * (op % 4)) := by
  have h9 := reg.isLt
  have h4 := d.isLt
  simp only [headerBits, msbBits, List.reverse_append, List.reverse_reverse, List.append_assoc]
  rw [bitsValue_lsbBits, bitsValue_lsbBits, bitsValue_lsbBits_nil, Nat.mod_eq_of_lt h9, Nat.mod_eq_of_lt h4]
  norm_num

theorem headerDevice_headerBits (op : Nat) (d : BitVec 4) (reg : BitVec 9) :
    headerDevice (bitsValue (headerBits op d reg).reverse) = d.toNat := by
  have h9 := reg.isLt
  have h4 := d.isLt
  rw [bitsValue_headerBits, headerDevice]
  omega

theorem headerOpcode_headerBits (op : Nat) (d : BitVec 4) (reg : BitVec 9) :
    headerOpcode (bitsValue (headerBits op d reg).reverse) = op % 4 := by
  have h9 := reg.isLt
  have h4 := d.isLt
  rw [bitsValue_headerBits, headerOpcode]
  omega

theorem headerReg_headerBits (op : Nat) (d : BitVec 4) (reg : BitVec 9) :
    headerReg (bitsValue (headerBits op d reg).reverse) = reg.toNat := by
  have h9 := reg.isLt
  have h4 := d.isLt
  rw [bitsValue_headerBits, headerReg]
  omega

/-- R157: the decision at the end of a header. -/
theorem State.headerDone_headerBits (s : State) (r : Receiver) (op : Nat) (d : BitVec 4) (reg : BitVec 9) (hop : op < 4) :
    (s.setRx r).headerDone (headerBits op d reg).reverse =
      if d.toNat ≠ s.mgmt.straps.toNat then s.setRx (Receiver.follow (headerBits op d reg).reverse .otherDevice)
      else if op = 0 then s.setRx (Receiver.follow (headerBits op d reg).reverse .invalidOpcode)
      else if op = 2 then s.setRx (Receiver.follow (headerBits op d reg).reverse .write)
      else if op = 1 then (s.setRx r).sampleRead (headerBits op d reg).reverse reg.toNat
      else (s.setRx r).sampleRead (headerBits op d reg).reverse s.nextReg := by
  simp only [State.headerDone, headerDevice_headerBits, headerOpcode_headerBits, headerReg_headerBits,
    Nat.mod_eq_of_lt hop, State.setRx_mgmt, State.setRx_setRx]
  rfl

/-! ### Parity -/

theorem oddOnes_congr {as bs : List Bool} (h : as.count true = bs.count true) : oddOnes as = oddOnes bs := by
  simp [oddOnes, h]

theorem oddOnes_sentParity (as : List Bool) (bad : Bool) : oddOnes ((oddOnes as).xor bad :: as) = bad := by
  cases bad <;> rcases Nat.mod_two_eq_zero_or_one (as.count true) with h | h <;>
    simp [oddOnes, h] <;> omega

/-- R158: with the parity bit the count of ones is even. -/
theorem count_append_oddOnes (bs : List Bool) : (bs ++ [oddOnes bs]).count true % 2 = 0 := by
  rcases Nat.mod_two_eq_zero_or_one (bs.count true) with h | h <;> simp [oddOnes, h]; omega

/-- The bits that follow the header of a frame the controller drives. -/
def drivenBody (header : List Bool) (turn : BitVec 2) (data : Word16) (bad : Bool) : List Bool :=
  msbBits 2 turn.toNat ++ (msbBits 16 data.toNat ++ [sentParity header (msbBits 16 data.toNat) bad])

@[simp] theorem length_drivenBody (header : List Bool) (turn : BitVec 2) (data : Word16) (bad : Bool) :
    (drivenBody header turn data bad).length = 19 := by simp [drivenBody]

theorem drivenFrame_eq (header : List Bool) (turn : BitVec 2) (data : Word16) (bad : Bool) :
    drivenFrame header turn data bad = startField ++ (header ++ drivenBody header turn data bad) := rfl

theorem drivenBody_reverse (header : List Bool) (turn : BitVec 2) (data : Word16) (bad : Bool) :
    (drivenBody header turn data bad).reverse =
      sentParity header (msbBits 16 data.toNat) bad :: (lsbBits 16 data.toNat ++ lsbBits 2 turn.toNat) := by
  simp [drivenBody, msbBits]

theorem frameData_driven (header : List Bool) (turn : BitVec 2) (data : Word16) (bad : Bool) :
    frameData ((drivenBody header turn data bad).reverse ++ header.reverse) = data := by
  have h : (lsbBits 16 data.toNat ++ (lsbBits 2 turn.toNat ++ header.reverse)).take 16 = lsbBits 16 data.toNat := by
    rw [List.take_append_of_le_length (by simp), List.take_of_length_le (by simp)]
  simp only [frameData, drivenBody_reverse, List.cons_append, List.tail_cons, List.append_assoc, h, bitsValue_lsbBits_nil]
  apply BitVec.eq_of_toNat_eq
  simp [Nat.mod_eq_of_lt data.isLt]

theorem frameHeader_driven (header : List Bool) (turn : BitVec 2) (data : Word16) (bad : Bool) :
    frameHeader ((drivenBody header turn data bad).reverse ++ header.reverse) = bitsValue header.reverse := by
  rw [frameHeader, List.drop_left' (by simp)]

theorem parityCovered_driven (header : List Bool) (turn : BitVec 2) (data : Word16) (bad : Bool) :
    oddOnes (parityCovered ((drivenBody header turn data bad).reverse ++ header.reverse)) = bad := by
  have h17 : ((drivenBody header turn data bad).reverse ++ header.reverse).take 17 =
      sentParity header (msbBits 16 data.toNat) bad :: lsbBits 16 data.toNat := by
    rw [drivenBody_reverse, List.cons_append, List.take_succ_cons, List.append_assoc,
      List.take_append_of_le_length (by simp), List.take_of_length_le (by simp)]
  have h19 : ((drivenBody header turn data bad).reverse ++ header.reverse).drop 19 = header.reverse := by
    rw [List.drop_left' (by simp)]
  rw [parityCovered, h17, h19, sentParity, List.cons_append]
  have hc : (lsbBits 16 data.toNat ++ header.reverse).count true = (header ++ msbBits 16 data.toNat).count true := by
    simp [msbBits, List.count_append]; omega
  calc oddOnes ((oddOnes (header ++ msbBits 16 data.toNat)).xor bad :: (lsbBits 16 data.toNat ++ header.reverse))
      = oddOnes ((oddOnes (header ++ msbBits 16 data.toNat)).xor bad :: (header ++ msbBits 16 data.toNat)) :=
        oddOnes_congr (by simp only [List.count_cons, hc])
    _ = bad := oddOnes_sentParity _ _

/-! ### Whole frames -/

/-- R159: a WRITE frame addressed to the part, whole and after a full preamble: a wrong parity bit makes it a frame error,
and otherwise it is a write access of the register it names. -/
theorem State.sendWrite_eq (s : State) (w : WriteLine) (reg : BitVec 9) (data : Word16) (hw : w.wf = true)
    (h : s.mgmt.rx.phase = .hunt) :
    s.sendWrite w reg data =
      if w.badParity then (s.setRx Receiver.idle).mgmtFrameError
      else (s.setRx Receiver.idle).writeAccess reg.toNat data := by
  rw [State.sendWrite, drivenFrame_eq, State.feed_line s _ _ _ hw h (by simp),
    State.headerDone_headerBits _ _ _ _ _ (by decide)]
  simp only [ne_eq, not_true_eq_false, if_false, if_true, show (2 : Nat) ≠ 0 by decide]
  rw [State.feed_body _ _ _ _ (by simp) (by simp), State.frameDone_setRx]
  simp only [State.frameDone, parityCovered_driven, frameHeader_driven, headerReg_headerBits, frameData_driven]

theorem State.sendWrite_good (s : State) (w : WriteLine) (reg : BitVec 9) (data : Word16) (hw : w.wf = true)
    (h : s.mgmt.rx.phase = .hunt) (hp : w.badParity = false) :
    s.sendWrite w reg data = (s.setRx Receiver.idle).writeAccess reg.toNat data := by
  rw [State.sendWrite_eq s w reg data hw h]; simp [hp]

theorem State.sendWrite_bad (s : State) (w : WriteLine) (reg : BitVec 9) (data : Word16) (hw : w.wf = true)
    (h : s.mgmt.rx.phase = .hunt) (hp : w.badParity = true) :
    s.sendWrite w reg data = (s.setRx Receiver.idle).mgmtFrameError := by
  rw [State.sendWrite_eq s w reg data hw h]; simp [hp]

/-- R157: a frame with opcode 00 addressed to the part. -/
theorem State.feed_invalidOpcode (s : State) (w : WriteLine) (reg : BitVec 9) (data : Word16) (hw : w.wf = true)
    (h : s.mgmt.rx.phase = .hunt) :
    s.feed (lineBits w.line (drivenFrame (headerBits 0 s.mgmt.straps reg) w.turn data w.badParity)) =
      (s.setRx Receiver.idle).mgmtFrameError := by
  rw [drivenFrame_eq, State.feed_line s _ _ _ hw h (by simp), State.headerDone_headerBits _ _ _ _ _ (by decide)]
  simp only [ne_eq, not_true_eq_false, if_false, if_true]
  rw [State.feed_body _ _ _ _ (by simp) (by simp), State.frameDone_setRx]
  rfl

/-- R157: a frame addressed to another device. -/
theorem State.feed_otherDevice (s : State) (w : WriteLine) (op : BitVec 2) (d : BitVec 4) (reg : BitVec 9) (data : Word16)
    (hw : w.wf = true) (h : s.mgmt.rx.phase = .hunt) (hd : d ≠ s.mgmt.straps) :
    s.feed (lineBits w.line (drivenFrame (headerBits op.toNat d reg) w.turn data w.badParity)) =
      s.setRx Receiver.idle := by
  have hd' : d.toNat ≠ s.mgmt.straps.toNat := fun e => hd (BitVec.eq_of_toNat_eq e)
  rw [drivenFrame_eq, State.feed_line s _ _ _ hw h (by simp), State.headerDone_headerBits _ _ _ _ _ op.isLt, if_pos hd',
    State.feed_body _ _ _ _ (by simp) (by simp), State.frameDone_setRx]
  rfl

/-! ### Reads -/

@[simp] theorem State.readReg_setRx (s : State) (r : Receiver) (g : Reg) : (s.setRx r).readReg g = s.readReg g := by
  cases g <;> rfl

@[simp] theorem State.readPair_setRx (s : State) (r : Receiver) (p : Pair) : (s.setRx r).readPair p = s.readPair p := by
  cases p <;> rfl

/-- A read access does not depend on the receiver and leaves it alone. -/
theorem State.readAccess_setRx (s : State) (r : Receiver) (n : Nat) :
    (s.setRx r).readAccess n = ((s.readAccess n).1, (s.readAccess n).2.setRx r) := by
  unfold State.readAccess
  cases regAt n with
  | word g => cases g <;> rfl
  | low p => cases p <;> rfl
  | high p =>
    simp only [State.readHigh, State.setRx_mgmt]
    cases s.mgmt.latch with
    | invalid => cases p <;> rfl
    | capture q v => by_cases hq : q = p <;> simp only [hq, if_true, if_false] <;> cases p <;> rfl
    | lowWritten q v => by_cases hq : q = p <;> simp only [hq, if_true, if_false] <;> cases p <;> rfl
  | unimplemented => rfl

theorem readFrame_eq (header : List Bool) : readFrame header = startField ++ (header ++ List.replicate 19 true) := rfl

/-- The state after a read access of register `n` in a frame with the given header, the frame having ended (R158). -/
def State.afterRead (s : State) (header : List Bool) (n : Nat) : State :=
  ((s.readAccess n).2.setRx Receiver.idle).emit
    (.mdaWord (s.readAccess n).1 (readParity header.reverse (s.readAccess n).1))

/-- R158: a sampled read frame followed to its end. -/
theorem State.feed_sampleRead (s : State) (r : Receiver) (header : List Bool) (n : Nat) (hh : header.length = 15) :
    ((s.setRx r).sampleRead header.reverse n).feed (List.replicate 19 true) = s.afterRead header n := by
  rw [State.sampleRead, State.readAccess_setRx, State.setRx_setRx,
    State.feed_body _ _ _ _ (by simp [hh]) (by simp), State.frameDone_setRx]
  simp only [State.frameDone, State.afterRead]
  rw [List.drop_left' (by simp)]

/-- R158: a READ frame addressed to the part, whole and after a full preamble. -/
theorem State.sendRead_eq (s : State) (l : Line) (reg : BitVec 9) (hl : l.wf = true) (h : s.mgmt.rx.phase = .hunt) :
    s.sendRead l reg = s.afterRead (headerBits 1 s.mgmt.straps reg) reg.toNat := by
  rw [State.sendRead, readFrame_eq, State.feed_line s _ _ _ hl h (by simp),
    State.headerDone_headerBits _ _ _ _ _ (by decide)]
  simp only [ne_eq, not_true_eq_false, if_false, if_true, show (1 : Nat) ≠ 0 by decide, show (1 : Nat) ≠ 2 by decide]
  exact State.feed_sampleRead _ _ _ _ (by simp)

/-- R160: a READ_NEXT frame addressed to the part, whole and after a full preamble. -/
theorem State.feed_readNext (s : State) (l : Line) (field : BitVec 9) (hl : l.wf = true) (h : s.mgmt.rx.phase = .hunt) :
    s.feed (lineBits l (readFrame (headerBits 3 s.mgmt.straps field))) =
      s.afterRead (headerBits 3 s.mgmt.straps field) s.nextReg := by
  rw [readFrame_eq, State.feed_line s _ _ _ hl h (by simp), State.headerDone_headerBits _ _ _ _ _ (by decide)]
  simp only [ne_eq, not_true_eq_false, if_false, show (3 : Nat) ≠ 0 by decide, show (3 : Nat) ≠ 2 by decide,
    show (3 : Nat) ≠ 1 by decide]
  exact State.feed_sampleRead _ _ _ _ (by simp)

/-- R155: a start field that differs returns the receiver to HUNT. -/
theorem State.feed_mismatch (s : State) (ones : Nat) (k : Fin 3) (h : s.mgmt.rx.phase = .hunt) (ho : 16 ≤ ones) :
    s.feed (List.replicate ones true ++ (startField.take (k.val + 1) ++ [!startBit (k.val + 1)])) =
      s.setRx Receiver.idle := by
  rw [State.feed_append, State.feed_ones s _ h]
  have h16 : 16 ≤ s.mgmt.rx.ones + ones := by omega
  match k with
  | 0 => simp [startField, State.feed_cons, State.sampleBit, startBit, h, Config.preambleOnes, h16]
  | 1 => simp [startField, State.feed_cons, State.sampleBit, startBit, h, Config.preambleOnes, h16, Receiver.push]
  | 2 => simp [startField, State.feed_cons, State.sampleBit, startBit, h, Config.preambleOnes, h16, Receiver.push]

/-! ### Frames that MCK leaves -/

/-- R155: the first bits of a start field leave the receiver in START or at the beginning of the header, its timer at 0. -/
theorem State.feed_start_cut (s : State) (k : Nat) (h : s.mgmt.rx.phase = .hunt) (ho : 16 ≤ s.mgmt.rx.ones) (h1 : 1 ≤ k)
    (h4 : k ≤ 4) :
    ∃ rx : Receiver, (rx.phase = .start ∨ rx.phase = .header) ∧ rx.timer = 0 ∧ s.feed (startField.take k) = s.setRx rx := by
  have hs : s.sampleBit false = s.setRx { phase := .start, ones := 0, bits := [false], role := .unknown, timer := 0 } := by
    simp [State.sampleBit, h, Config.preambleOnes, ho]
  interval_cases k <;> rw [startField, List.take_succ_cons, State.feed_cons, hs]
  · exact ⟨_, .inl rfl, rfl, rfl⟩
  · exact ⟨_, .inl rfl, rfl, rfl⟩
  · exact ⟨_, .inl rfl, rfl, rfl⟩
  · exact ⟨_, .inr rfl, rfl, rfl⟩

/-- R155, R156: a frame cut before the last bit of its register number changes the receiver alone. -/
theorem State.feed_line_early (s : State) (l : Line) (header body : List Bool) (k : Nat) (ho : 16 ≤ l.ones)
    (hc : l.cut = some k) (h : s.mgmt.rx.phase = .hunt) (hh : header.length = 15) (h1 : 1 ≤ k) (h19 : k < 19) :
    ∃ rx : Receiver, (rx.phase = .start ∨ rx.phase = .header) ∧ rx.timer = 0 ∧
      s.feed (lineBits l (startField ++ (header ++ body))) = s.setRx rx := by
  rw [lineBits, hc]
  simp only
  rw [State.feed_append, State.feed_ones s _ h]
  have hp : (s.setRx { s.mgmt.rx with ones := s.mgmt.rx.ones + l.ones }).mgmt.rx.phase = .hunt := by simpa using h
  have hn : 16 ≤ (s.setRx { s.mgmt.rx with ones := s.mgmt.rx.ones + l.ones }).mgmt.rx.ones := by
    simp only [State.setRx_mgmt]; omega
  have hl : startField.length = 4 := rfl
  by_cases h4 : k ≤ 4
  · obtain ⟨rx, hr, ht, he⟩ := State.feed_start_cut _ k hp hn h1 h4
    refine ⟨rx, hr, ht, ?_⟩
    rw [List.take_append_of_le_length (by omega), he, State.setRx_setRx]
  · refine ⟨Receiver.inHeader (header.take (k - 4)).reverse, .inr rfl, rfl, ?_⟩
    rw [List.take_append, List.take_of_length_le (by omega), State.feed_append, State.feed_start _ hp hn,
      State.setRx_setRx, List.take_append_of_le_length (by omega), State.feed_header _ _ _ (by simp; omega)]
    simp [hl]

/-- R155, R157: a frame cut at or after the last bit of its register number: the header is decided, and the bits that follow it
are sampled as far as they come. -/
theorem State.feed_line_late (s : State) (l : Line) (header body : List Bool) (k : Nat) (ho : 16 ≤ l.ones)
    (hc : l.cut = some k) (h : s.mgmt.rx.phase = .hunt) (hh : header.length = 15) (h19 : 19 ≤ k) :
    s.feed (lineBits l (startField ++ (header ++ body))) =
      ((s.setRx (Receiver.inHeader header.reverse.tail)).headerDone header.reverse).feed (body.take (k - 19)) := by
  have ht : (startField ++ (header ++ body)).take k = startField ++ (header ++ body.take (k - 19)) := by
    have hl : startField.length = 4 := rfl
    rw [List.take_append, List.take_of_length_le (by omega), List.take_append, List.take_of_length_le (by omega), hl, hh,
      Nat.sub_sub]
  have hw := State.feed_line s { l with cut := none } header (body.take (k - 19))
    (by simp [Line.wf, Config.preambleOnes, ho]) h hh
  rw [lineBits] at hw ⊢
  rw [hc]
  simp only at hw ⊢
  rw [ht]
  exact hw

/-- R155, R156: after the header a frame that ends before its parity bit changes the receiver alone. -/
theorem State.feed_follow (s : State) (role : RxRole) (acc bs : List Bool) (ha : acc.length = 15) (h : bs.length ≤ 18) :
    (s.setRx (Receiver.follow acc role)).feed bs = s.setRx (Receiver.inFrame (bs.reverse ++ acc) role) := by
  have hf : Receiver.follow acc role = Receiver.inFrame acc role := by
    simp [Receiver.follow, Receiver.inFrame, phaseAfter, ha]
  rw [hf, State.feed_frame _ _ _ _ (by omega)]

theorem phaseAfter_ne_hunt (k : Nat) : phaseAfter k ≠ .hunt := by
  unfold phaseAfter; split <;> [simp; (split <;> simp)]

/-! ### What the part drives -/

/-- R158: outside a read frame addressed to the part nothing is driven. -/
theorem Receiver.drive_eq_none (r : Receiver) (h : ∀ v, r.role ≠ .read v) : r.drive = none := by
  unfold Receiver.drive
  split
  · rename_i v hv; exact absurd hv (h v)
  · rfl

/-- R158: what is driven in a read frame of which `k` bits have been sampled, its header included and the start field not. -/
theorem Receiver.drive_inFrame (bits : List Bool) (v : Word16) :
    (Receiver.inFrame bits (.read v)).drive =
      if bits.length < 16 then none else if bits.length = 16 then some false
      else if bits.length < 33 then some (v.getLsbD (32 - bits.length)) else some (readParity (bits.drop 18) v) := by
  unfold Receiver.drive Receiver.inFrame phaseAfter
  by_cases h17 : bits.length < 17
  · by_cases h16 : bits.length = 16
    · simp [h16]
    · have : bits.length < 16 := by omega
      simp [h17, h16, this]
  · have h1 : ¬ bits.length < 16 := by omega
    have h2 : bits.length ≠ 16 := by omega
    by_cases h33 : bits.length < 33
    · have : 15 - (bits.length - 17) = 32 - bits.length := by omega
      simp [h17, h1, h2, h33, this]
    · simp [h17, h1, h2, h33]

end Sys2Proof.Machine
end

