-- ==== Sys2Proof/Laws/Accesses.lean ====
section
/-! SUPPORT. Induction over what the management link can do: a property of states that survives the few operations a bit, a
read access, a write access or a command is made of survives all of them. -/

namespace Sys2Proof.Machine

/-- A property kept by the operations that a read access is made of is kept by a read access. -/
theorem State.readAccess_keeps {P : State → Prop} (s : State) (n : Nat) (h : P s)
    (reg : ∀ s : State, ∀ n, P s → P { s with mgmt := { s.mgmt with lastReg := n } })
    (latch : ∀ s : State, ∀ l, P s → P (s.setLatch l))
    (stats : ∀ s : State, ∀ st, P s → P { s with stats := st })
    (clear : ∀ s : State, P s → P { s with alert := s.alert.clear }) : P (s.readAccess n).2 := by
  have h' := reg s (BitVec.ofNat 9 n) h
  unfold State.readAccess
  cases regAt n with
  | word r =>
    refine latch _ _ ?_
    unfold State.clearReg
    split
    · exact stats _ _ h'
    · exact h'
  | low p =>
    refine latch _ _ ?_
    unfold State.clearPair
    split
    · exact stats _ _ h'
    · split
      · exact clear _ h'
      · exact h'
  | high p =>
    unfold State.readHigh
    simp only
    split
    · split
      · exact h'
      · exact latch _ _ h'
    · split
      · exact h'
      · exact latch _ _ h'
    · exact latch _ _ h'
  | unimplemented => exact latch _ _ h'

/-- A property kept by setting the receiver, by read and write accesses, by a frame error and by an output is kept by every
bit sampled. -/
theorem State.sampleBit_keeps {P : State → Prop} (s : State) (b : Bool) (h : P s)
    (rx : ∀ s : State, ∀ r, P s → P (s.setRx r))
    (read : ∀ s : State, ∀ n, P s → P (s.readAccess n).2)
    (write : ∀ s : State, ∀ n v, P s → P (s.writeAccess n v))
    (error : ∀ s : State, P s → P s.mgmtFrameError)
    (emit : ∀ s : State, ∀ o, P s → P (s.emit o)) : P (s.sampleBit b) := by
  unfold State.sampleBit
  simp only
  split
  · repeat' split
    all_goals exact rx _ _ h
  · repeat' split
    all_goals exact rx _ _ h
  · split
    · exact rx _ _ h
    · unfold State.headerDone State.sampleRead
      simp only
      repeat' split
      all_goals first | exact rx _ _ h | exact rx _ _ (read _ _ h)
  · exact rx _ _ h
  · exact rx _ _ h
  · unfold State.frameDone
    simp only
    split
    · exact rx _ _ h
    · exact rx _ _ h
    · exact error _ (rx _ _ h)
    · exact emit _ _ (rx _ _ h)
    · split
      · exact error _ (rx _ _ h)
      · exact write _ _ _ (rx _ _ h)

/-- The same for any bits fed. -/
theorem State.feed_keeps {P : State → Prop} (bits : List Bool) (s : State) (h : P s)
    (rx : ∀ s : State, ∀ r, P s → P (s.setRx r))
    (read : ∀ s : State, ∀ n, P s → P (s.readAccess n).2)
    (write : ∀ s : State, ∀ n v, P s → P (s.writeAccess n v))
    (error : ∀ s : State, P s → P s.mgmtFrameError)
    (emit : ∀ s : State, ∀ o, P s → P (s.emit o)) : P (s.feed bits) := by
  induction bits generalizing s with
  | nil => exact h
  | cons b bs ih => exact ih _ (s.sampleBit_keeps b h rx read write error emit)

/-! ### Write accesses -/

/-- What the commands written to CMD are made of, as conditions on a property of states: the property survives each. -/
structure CommandClosed (P : State → Prop) : Prop where
  mgmt : ∀ (s : State) (g : Mgmt), g.rx = s.mgmt.rx → g.straps = s.mgmt.straps → g.tickLen = s.mgmt.tickLen →
    g.tickDiv = s.mgmt.tickDiv → P s → P { s with mgmt := g }
  alert : ∀ (s : State) (a : Alert), P s → P { s with alert := a }
  stats : ∀ (s : State) (st : Stats), P s → P { s with stats := st }
  resetting : ∀ s : State, P s → P { s with resetting := true }
  baseline : ∀ s : State, P s → P { s with frz := { s.frz with baseline := false } }
  slot : ∀ (s : State) (q : Option FreezeReq), P s → P { s with frz := { s.frz with slot := q } }
  staging : ∀ (s : State) (v : Win), v.table = s.win.table → P s → P { s with win := v }
  table : ∀ (s : State) (i : Nat) (t : List Window), s.frz.active = false → s.frz.st = .idle →
    s.win.replaced i = some t → P s → P (s.setTable t)
  freezePoint : ∀ (s : State) (k : Kind), s.canFreeze = true → P s → P (s.freezePoint .mgmt k)
  cancelSlot : ∀ s : State, P s → P s.cancelSlot
  breakEpoch : ∀ (s : State) (c : BreakCause), P s → P (s.breakEpoch c)

namespace CommandClosed

variable {P : State → Prop} (c : CommandClosed P)
include c

theorem completeCommand (s : State) (r : CmdResult) (h : P s) : P (s.completeCommand r) :=
  c.mgmt { s with alert := s.alert.raise .cmdDone } _ rfl rfl rfl rfl (c.alert s _ h)

/-- Taking a command keeps the property. -/
theorem takeCommand (s : State) (code : Nat) (h : P s) : P (s.takeCommand code) := by
  have h' : P { s with mgmt := s.mgmt.take code } := c.mgmt s _ rfl rfl rfl rfl h
  unfold State.takeCommand
  simp only
  split
  · unfold State.doFreeze
    split
    · exact c.completeCommand _ _ h'
    · split
      · exact c.completeCommand _ _ (c.freezePoint _ _ ‹_› h')
      · split
        · exact c.completeCommand _ _ h'
        · split
          · exact c.completeCommand _ _ h'
          · exact c.slot _ _ h'
  · exact c.completeCommand _ _ (c.breakEpoch _ _ (c.cancelSlot _ h'))
  · exact c.completeCommand _ _ (c.baseline _ h')
  · unfold State.doWindowWrite
    split
    · exact c.completeCommand _ _ h'
    · split
      · exact c.completeCommand _ _ h'
      · rename_i hs
        rw [not_or, Bool.not_eq_true, not_not] at hs
        split
        · exact c.completeCommand _ _ h'
        · exact c.completeCommand _ _ (c.table _ _ _ hs.1 hs.2 ‹_› h')
  · unfold State.doWindowRead
    split
    · exact c.completeCommand _ _ h'
    · exact c.completeCommand _ _ (c.staging _ _ rfl h')
  · unfold State.doHistoryRead
    split
    · exact c.completeCommand _ _ h'
    · exact c.completeCommand _ _ (c.mgmt _ _ rfl rfl rfl rfl h')
  · exact c.completeCommand _ _ (c.stats _ _ h')
  · exact c.resetting _ (c.breakEpoch _ _ (c.cancelSlot _ h'))
  · exact c.completeCommand _ _ h'

/-- A WRITE to CMD keeps the property. -/
theorem writeCmd (s : State) (code : Nat) (h : P s) : P (s.writeCmd code) := by
  unfold State.writeCmd
  split
  · exact c.takeCommand _ _ h
  · split
    · exact c.takeCommand _ _ (c.completeCommand _ _ (c.slot _ _ h))
    · exact c.mgmt _ _ rfl rfl rfl rfl h

end CommandClosed

/-- What a write access is made of, as conditions on a property of states: the property survives each of these. -/
structure WriteClosed (P : State → Prop) : Prop where
  writeCmd : ∀ (s : State) (code : Nat), P s → P (s.writeCmd code)
  mgmt : ∀ (s : State) (g : Mgmt), g.rx = s.mgmt.rx → g.straps = s.mgmt.straps → g.tickLen = s.mgmt.tickLen →
    (g.tickDiv = s.mgmt.tickDiv ∨ g.tickDiv ≠ 0) → g.busy = s.mgmt.busy → g.code = s.mgmt.code → P s →
    P { s with mgmt := g }
  alert : ∀ (s : State) (a : Alert), P s → P { s with alert := a }
  stats : ∀ (s : State) (st : Stats), P s → P { s with stats := st }
  kinds : ∀ (s : State) (l m : Kind), P s → P { s with frz := { s.frz with lineKind := l, markerKind := m } }
  stallLimit : ∀ (s : State) (v : Word16), P s → P { s with frz := { s.frz with stallLimit := v } }
  epochLimit : ∀ (s : State) (v : Word16), P s → P { s with frz := { s.frz with epochLimit := v } }
  hwm : ∀ (s : State) (v : Word16), watermarksOk s.jrn.lwm v = true → P s → P { s with jrn := { s.jrn with hwm := v } }
  lwm : ∀ (s : State) (v : Word16) (a : Bool), watermarksOk v s.jrn.hwm = true → P s →
    P { s with jrn := { s.jrn with lwm := v, armed := a } }
  policy : ∀ (s : State) (p : Policy), P s → P { s with jrn := { s.jrn with policy := p } }
  fault : ∀ (s : State) (f : DrainFault), P s → P { s with jrn := { s.jrn with fault := f } }
  staging : ∀ (s : State) (v : Win), v.table = s.win.table → P s → P { s with win := v }
  ackTmo : ∀ (s : State) (v : Word16), v ≠ 0 → P s → P { s with lnk := { s.lnk with ackTmo := v } }
  retryLim : ∀ (s : State) (v : Word16), 1 ≤ v.toNat → v.toNat ≤ 15 → P s →
    P { s with lnk := { s.lnk with retryLim := v } }
  pauseLim : ∀ (s : State) (v : Word16), P s → P { s with lnk := { s.lnk with pauseLim := v } }
  weights : ∀ (s : State) (w : Weights), w.live ≠ 0 → w.drain ≠ 0 → w.copier ≠ 0 → P s →
    P { s with mp := { s.mp with cfg := w } }
  breakEpoch : ∀ (s : State) (c : BreakCause), P s → P (s.breakEpoch c)
  stallExpire : ∀ s : State, P s → P s.stallExpire
  ackExpire : ∀ s : State, P s → P s.ackExpire

namespace WriteClosed

variable {P : State → Prop} (c : WriteClosed P)
include c

/-- The write of a 16-bit register keeps the property. -/
theorem writeReg (s : State) (r : Reg) (v : Word16) (h : P s) : P (s.writeReg r v) := by
  unfold State.writeReg
  split
  · exact c.writeCmd _ _ h
  · exact c.mgmt _ _ rfl rfl rfl (.inl rfl) rfl rfl h
  · unfold State.writeTickDiv
    split
    · exact h
    · exact c.mgmt _ _ rfl rfl rfl (.inr ‹_›) rfl rfl h
  · unfold State.writeFrzCfg
    split
    · exact c.kinds _ _ _ h
    · exact h
  · unfold State.writeStallLimit
    simp only
    split
    · exact c.stallExpire _ (c.stallLimit _ _ h)
    · exact c.stallLimit _ _ h
  · unfold State.writeEpochLimit
    simp only
    split
    · exact c.breakEpoch _ _ (c.epochLimit _ _ h)
    · exact c.epochLimit _ _ h
  · unfold State.writeJrnCfg
    simp only
    split
    · exact c.breakEpoch _ _ (c.policy _ _ h)
    · exact c.policy _ _ h
  · unfold State.writeHwm
    split
    · exact c.hwm _ _ ‹_› h
    · exact h
  · unfold State.writeLwm
    split
    · exact c.lwm _ _ _ ‹_› h
    · exact h
  · exact c.fault _ _ h
  · exact c.staging _ _ rfl h
  · exact c.staging _ _ rfl h
  · unfold State.writeAckTmo
    split
    · exact h
    · simp only
      split
      · exact c.ackExpire _ (c.ackTmo _ _ ‹_› h)
      · exact c.ackTmo _ _ ‹_› h
  · unfold State.writeRetryLim
    split
    · exact c.retryLim _ _ (And.left ‹_›) (And.right ‹_›) h
    · exact h
  · unfold State.writePauseLim
    simp only
    split
    · exact c.breakEpoch _ _ (c.pauseLim _ _ h)
    · exact c.pauseLim _ _ h
  · unfold State.writeArbCfg
    simp only
    split
    · rename_i hw; exact c.weights _ _ hw.1 hw.2.1 hw.2.2 h
    · exact h
  · exact h

/-- A write access keeps the property. -/
theorem writeAccess (s : State) (n : Nat) (v : Word16) (h : P s) : P (s.writeAccess n v) := by
  have m := fun g h1 h2 h3 h4 h5 h6 => c.mgmt s g h1 h2 h3 (.inl h4) h5 h6 h
  unfold State.writeAccess
  cases regAt n with
  | word r => exact c.writeReg _ _ _ (m _ rfl rfl rfl rfl rfl rfl)
  | low p => exact m _ rfl rfl rfl rfl rfl rfl
  | high p =>
    simp only
    cases p
    case alertStat => exact c.alert _ _ (m _ rfl rfl rfl rfl rfl rfl)
    case alertEn => exact c.alert _ _ (m _ rfl rfl rfl rfl rfl rfl)
    case alertDis => exact c.alert _ _ (m _ rfl rfl rfl rfl rfl rfl)
    case winStgBase => exact c.staging _ _ rfl (m _ rfl rfl rfl rfl rfl rfl)
    all_goals exact m _ rfl rfl rfl rfl rfl rfl
  | unimplemented => exact m _ rfl rfl rfl rfl rfl rfl

/-- A read access keeps the property. -/
theorem readAccess (s : State) (n : Nat) (h : P s) : P (s.readAccess n).2 :=
  s.readAccess_keeps n h (fun s _ h => c.mgmt s _ rfl rfl rfl (.inl rfl) rfl rfl h)
    (fun s _ h => c.mgmt s _ rfl rfl rfl (.inl rfl) rfl rfl h) (fun s st h => c.stats s st h) (fun s h => c.alert s _ h)

/-- Any bits fed keep the property, if the receiver and the outputs are no concern of it. -/
theorem feed (bits : List Bool) (s : State) (h : P s) (rx : ∀ s : State, ∀ r, P s → P (s.setRx r))
    (emit : ∀ s : State, ∀ o, P s → P (s.emit o)) : P (s.feed bits) :=
  State.feed_keeps bits s h rx (fun s n h => c.readAccess s n h) (fun s n v h => c.writeAccess s n v h)
    (fun s h => c.stats _ _ (c.alert s _ h)) emit

end WriteClosed

/-! ### Commands that come over the management link -/

/-- The rows that are bits on MDA. -/
def onManagementLink : Instr → Bool
  | .controlledResetFinalStep | .powerOnReset _ _ | .sportReset | .freezeReqEdge | .lockGained | .lossOfLock
  | .requestArrives _ | .takeRead | .takeWrite | .grant | .completion _ _ | .placeFillFrame | .buildEnd
  | .startTransmission | .startAbandon | .transmissionEnd | .ack _ _ | .nak _ _ | .pause _ | .commit _ | .reject _ _
  | .inboundFrameDiscarded _ | .ackTimerExpiry | .pauseTimerExpiry | .continuousPauseExpiry | .stallTimerExpiry
  | .epochTimerExpiry | .frameTimerExpiry | .tickDividerApplied | .tick _ => false
  | _ => true

/-- Such a row feeds its bits to the receiver. -/
theorem exec_onManagementLink (i : Instr) (s : State) (h : onManagementLink i = true) :
    ∃ bits, exec i s = .next (s.feed bits) := by
  cases i <;> first | exact ⟨_, rfl⟩ | exact absurd h Bool.false_ne_true

/-- A property kept by what accesses are made of, by the receiver, by outputs and by every other row is kept by exec. -/
theorem WriteClosed.exec {P : State → Prop} (c : WriteClosed P) (rx : ∀ s : State, ∀ r, P s → P (s.setRx r))
    (emit : ∀ s : State, ∀ o, P s → P (s.emit o))
    (rows : ∀ i s t, onManagementLink i = false → P s → Machine.exec i s = .next t → P t)
    (i : Instr) (s t : State) (h : P s) (he : Machine.exec i s = .next t) : P t := by
  cases hm : onManagementLink i with
  | false => exact rows i s t hm h he
  | true =>
    obtain ⟨bits, hb⟩ := exec_onManagementLink i s hm
    rw [hb] at he
    cases he
    exact c.feed bits s h rx emit

end Sys2Proof.Machine
end

