-- ==== Sys2Proof/Laws/Operations.lean ====
section
/-! SUPPORT. What the shared operations do, said once each: the arbiter, the memory queue, the copier's issue, the journal,
the window table, the granule maps and the frame plan. A later proof cites these lemmas and does not unfold the operations. -/

namespace Sys2Proof.Machine

/-! ### The memory queue and the arbiter -/

/-- R140: the oldest WAITING entry, behind ISSUED ones, becomes ISSUED. -/
theorem issueOldest_append (front back : List MemEntry) (e : MemEntry) (hf : ∀ f ∈ front, f.issued = true)
    (he : e.issued = false) :
    issueOldest (front ++ e :: back) = front ++ { e with issued := true } :: back ∧
      (front ++ e :: back).find? (fun e => !e.issued) = some e := by
  induction front with
  | nil => simp [issueOldest, he]
  | cons f fs ih =>
    have hf1 : f.issued = true := hf f (by simp)
    obtain ⟨h1, h2⟩ := ih fun g hg => hf g (by simp [hg])
    exact ⟨by simp [issueOldest, hf1, h1], by simp [hf1, h2]⟩

/-- R140: sending uses a credit for each entry it issues. -/
theorem countP_issueOldest (q : List MemEntry) (h : (q.find? fun e => !e.issued).isSome) :
    (issueOldest q).countP MemEntry.issued = q.countP MemEntry.issued + 1 := by
  induction q with
  | nil => simp at h
  | cons e es ih =>
    cases he : e.issued with
    | true => simp [issueOldest, he, ih (by simpa [List.find?, he] using h)]
    | false => simp [issueOldest, he]

/-- Sending an entry changes nothing that a reference is read from. -/
theorem issueOldest_filterMap {α : Type} (f : MemEntry → Option α) (h : ∀ e, f { e with issued := true } = f e)
    (q : List MemEntry) : (issueOldest q).filterMap f = q.filterMap f := by
  induction q with
  | nil => rfl
  | cons e es ih =>
    unfold issueOldest
    split
    · simp [List.filterMap_cons, ih]
    · simp [List.filterMap_cons, h]

/-- R140: sending to the memory controller changes the queue, the credits and the outputs, and nothing else. -/
theorem State.sendToMemory_eq (s : State) :
    ∃ q n o, s.sendToMemory = { s with mp := { s.mp with queue := q, credits := n }, out := o } ∧
      n + q.countP MemEntry.issued = s.mp.credits + s.mp.queue.countP MemEntry.issued ∧ q.length = s.mp.queue.length := by
  have hl : ∀ q : List MemEntry, (issueOldest q).length = q.length := by
    intro q
    induction q with
    | nil => rfl
    | cons e es ih => unfold issueOldest; split <;> simp [ih]
  unfold State.sendToMemory
  split
  · rename_i e he
    split
    · refine ⟨_, _, _, rfl, ?_, hl _⟩
      rw [countP_issueOldest _ (by rw [he]; rfl)]
      omega
    · exact ⟨s.mp.queue, s.mp.credits, s.out, rfl, rfl, rfl⟩
  · exact ⟨s.mp.queue, s.mp.credits, s.out, rfl, rfl, rfl⟩

/-- R144: moving on keeps the queue, the credits and the stored weights. -/
theorem Mp.seek_eq (work : Requester → Bool) (k : Nat) (m : Mp) :
    ∃ pos n cur, Mp.seek work k m = { m with pos := pos, grants := n, cur := cur } ∧ (cur = m.cur ∨ cur = m.cfg) := by
  induction k generalizing m with
  | zero => exact ⟨m.pos, m.grants, m.cur, rfl, .inl rfl⟩
  | succ k ih =>
    unfold Mp.seek
    split
    · exact ⟨m.pos, m.grants, m.cur, rfl, .inl rfl⟩
    · obtain ⟨pos, n, cur, h, hc⟩ := ih m.move
      refine ⟨pos, n, cur, by rw [h]; rfl, ?_⟩
      unfold Mp.move at hc
      simp only at hc
      split at hc
      · exact .inr (hc.elim id id)
      · exact hc

/-- R144: the winner's count rises, or the arbiter moves on; the queue, the credits and the stored weights are kept. -/
theorem Mp.won_eq (m : Mp) :
    ∃ pos n cur, m.won = { m with pos := pos, grants := n, cur := cur } ∧ (cur = m.cur ∨ cur = m.cfg) := by
  unfold Mp.won
  split
  · exact ⟨_, _, _, rfl, .inl rfl⟩
  · refine ⟨_, _, _, rfl, ?_⟩
    split
    · exact .inr rfl
    · exact .inl rfl

theorem Weights.of_pos (w : Weights) (h1 : w.live ≠ 0) (h2 : w.drain ≠ 0) (h3 : w.copier ≠ 0) (r : Requester) :
    0 < w.of r := by
  have key : ∀ x : BitVec 4, x ≠ 0 → 0 < x.toNat := by decide
  cases r
  · exact key _ h1
  · exact key _ h2
  · exact key _ h3

/-- R144: with weights of which none is 0 and a requester that has work, the search ends at one that has work and share
left. -/
theorem Mp.seek_finds (work : Requester → Bool) (m : Mp) (hc : ∀ r, 0 < m.cur.of r) (hg : ∀ r, 0 < m.cfg.of r)
    (hw : (work .live || work .drain || work .copier) = true) :
    work (Mp.seek work arbiterLooks m).pos = true ∧
      (Mp.seek work arbiterLooks m).grants < (Mp.seek work arbiterLooks m).cur.of (Mp.seek work arbiterLooks m).pos := by
  have found : ∀ (k : Nat) (n : Mp), n.grants = 0 → (∀ r, 0 < n.cur.of r) → (∀ r, 0 < n.cfg.of r) →
      (work n.pos = true ∨ (work n.pos.next = true ∧ 1 ≤ k) ∨ (work n.pos.next.next = true ∧ 2 ≤ k)) → 1 ≤ k →
      work (Mp.seek work k n).pos = true ∧ (Mp.seek work k n).grants < (Mp.seek work k n).cur.of (Mp.seek work k n).pos := by
    intro k
    induction k with
    | zero => intro n _ _ _ _ h; omega
    | succ k ih =>
      intro n h0 h1 h2 h3 _
      by_cases hn : work n.pos = true
      · have : (work n.pos && decide (n.grants < n.cur.of n.pos)) = true := by simp [hn, h0, h1]
        unfold Mp.seek
        rw [if_pos this]
        exact ⟨hn, by simpa using (Bool.and_eq_true_iff.1 this).2⟩
      · have hstep : Mp.seek work (k + 1) n = Mp.seek work k n.move := by
          show (if _ then n else _) = _
          rw [if_neg (by simp [hn])]
        have hcur : ∀ r, 0 < n.move.cur.of r := by
          intro r
          unfold Mp.move
          simp only
          split
          · exact h2 r
          · exact h1 r
        rw [hstep]
        cases k with
        | zero =>
          rcases h3 with h3 | h3 | h3
          · exact absurd h3 hn
          · exact ⟨h3.1, by show 0 < _; exact hcur _⟩
          · omega
        | succ k =>
          refine ih n.move rfl hcur h2 ?_ (by omega)
          rcases h3 with h3 | h3 | h3
          · exact absurd h3 hn
          · exact .inl h3.1
          · exact .inr (.inl ⟨h3.1, by omega⟩)
  have hall : ∀ p : Requester, work p = true ∨ work p.next = true ∨ work p.next.next = true := by
    intro p
    simp only [Bool.or_eq_true] at hw
    cases p <;> simp only [Requester.next] <;> tauto
  by_cases hm : (work m.pos && decide (m.grants < m.cur.of m.pos)) = true
  · have hs : Mp.seek work arbiterLooks m = m := by
      show (if _ then m else _) = m
      rw [if_pos hm]
    rw [hs]
    exact ⟨(Bool.and_eq_true_iff.1 hm).1, by simpa using (Bool.and_eq_true_iff.1 hm).2⟩
  · have hs : Mp.seek work arbiterLooks m = Mp.seek work 5 m.move := by
      show (if _ then m else _) = _
      rw [if_neg hm]
    have hcur : ∀ r, 0 < m.move.cur.of r := by
      intro r
      unfold Mp.move
      simp only
      split
      · exact hg r
      · exact hc r
    rw [hs]
    refine found 5 m.move rfl hcur hg ?_ (by omega)
    rcases hall m.move.pos with h | h | h
    · exact .inl h
    · exact .inr (.inl ⟨h, by omega⟩)
    · exact .inr (.inr ⟨h, by omega⟩)

/-- R80: a read issued changes the copier's place and count and the slots, and nothing else. -/
theorem State.copierIssue_eq (s : State) :
    ∃ reads pos slots, s.copierIssue.1 =
      { s with cap := { s.cap with reads := reads, pos := pos }, lnk := { s.lnk with slots := slots } } := by
  unfold State.copierIssue
  split
  · exact ⟨_, s.cap.pos, _, rfl⟩
  · split
    · exact ⟨_, _, _, rfl⟩
    · exact ⟨s.cap.reads, s.cap.pos, s.lnk.slots, rfl⟩

/-! ### The journal -/

/-- A change of an entry that keeps its block keeps the blocks of the journal. -/
theorem Jrn.update_blocks (j : Jrn) (b : Addr) (f : JEntry → JEntry) (h : ∀ e, (f e).block = e.block) :
    (j.update b f).entries.map JEntry.block = j.entries.map JEntry.block := by
  simp only [Jrn.update, List.map_map]
  refine List.map_congr_left fun e _ => ?_
  simp only [Function.comp]
  split
  · exact h e
  · rfl

/-- The end of capture or a break keeps the blocks of the journal. -/
theorem Jrn.release_blocks (j : Jrn) : j.release.entries.map JEntry.block = j.entries.map JEntry.block := by
  simp only [Jrn.release, List.map_map]
  refine List.map_congr_left fun e _ => ?_
  simp only [Function.comp]
  split <;> rfl

/-- R31: no entry is found for a block exactly if no entry has it. -/
theorem Jrn.find_eq_none (j : Jrn) (b : Addr) : j.find b = none ↔ b ∉ j.entries.map JEntry.block := by
  simp [Jrn.find]

/-- R33, R34: a write is handled by allocation only in FROZEN, with no entry of its block and room for one. -/
theorem State.handling_allocate {s : State} {w : WriteReq} {i : Nat} (h : s.handling w = .allocate i) :
    s.frz.st = .frozen ∧ s.jrn.find w.addr = none ∧ s.jrn.entries.length < 2048 := by
  unfold State.handling at h
  split at h
  · cases h
  · split at h
    · cases h
    · rename_i hf
      split at h
      · split at h
        · exact ⟨‹_›, by simpa using hf, ‹_›⟩
        · cases h
      · cases h

/-- R33, R42: a write meets exhaustion only in FROZEN, with no entry of its block and a full journal. -/
theorem State.handling_exhaustion {s : State} {w : WriteReq} (h : s.handling w = .exhaustion) :
    s.frz.st = .frozen ∧ s.jrn.find w.addr = none ∧ 2048 ≤ s.jrn.entries.length := by
  unfold State.handling at h
  split at h
  · cases h
  · split at h
    · cases h
    · rename_i hf
      split at h
      · split at h
        · cases h
        · rename_i hl
          exact ⟨‹_›, by simpa using hf, by simpa [Jrn.occupancy, Config.journalCapacity] using hl⟩
      · cases h

/-- R40: the condition on the watermarks in numbers. -/
theorem watermarksOk_iff (low high : Word16) :
    watermarksOk low high = true ↔ 1 ≤ low.toNat ∧ low.toNat < high.toNat ∧ high.toNat ≤ 2048 := by
  unfold watermarksOk
  rw [Bool.and_eq_true, Bool.and_eq_true, decide_eq_true_iff, decide_eq_true_iff, decide_eq_true_iff, and_assoc]
  rfl

/-- R4: the three conditions. -/
theorem State.canFreeze_iff (s : State) :
    s.canFreeze = true ↔ s.frz.st = .idle ∧ s.frz.active = false ∧ s.lnk.up = true := by
  simp [State.canFreeze, and_assoc]

theorem State.canFreeze_eq_false (s : State) :
    s.canFreeze = false ↔ ¬(s.frz.st = .idle ∧ s.frz.active = false ∧ s.lnk.up = true) := by
  rw [← s.canFreeze_iff, Bool.not_eq_true]

/-! ### The statistics counters -/

@[simp] theorem Stats.get_set_self (t : Stats) (c : Counter) (n : Nat) : (t.set c n).get c = n := by cases c <;> rfl

theorem Stats.get_set_of_ne (t : Stats) {c d : Counter} (n : Nat) (h : d ≠ c) : (t.set c n).get d = t.get d := by
  cases c <;> cases d <;> first | rfl | exact absurd rfl h

/-- R184: a counter's event. -/
@[simp] theorem Stats.get_count_self (t : Stats) (c : Counter) : (t.count c).get c = min (t.get c + 1) c.max :=
  t.get_set_self c _

theorem Stats.get_count_of_ne (t : Stats) {c d : Counter} (h : d ≠ c) : (t.count c).get d = t.get d :=
  t.get_set_of_ne _ h

/-- R189: an offer to JRN_PEAK is a setting of JRN_PEAK to the maximum. -/
theorem Stats.offerPeak_eq (t : Stats) (n : Nat) : t.offerPeak n = t.set .jrnPeak (max (t.get .jrnPeak) n) := rfl

/-! ### Records of the system port -/

/-- R121, R136: a pair is held exactly by the records, claimed ones among them, that are not silent. -/
theorem Sp.pairHeld_iff (p : Sp) (i : BitVec 4) (t : BitVec 6) :
    p.pairHeld i t = true ↔
      (∃ q ∈ p.reads, q.silent = false ∧ q.initiator = i ∧ q.tag = t) ∨
        ∃ q ∈ p.writes, q.silent = false ∧ q.initiator = i ∧ q.tag = t := by
  simp [Sp.pairHeld, and_assoc]

/-- A fresh record number is not in use. -/
theorem freshId_not_mem (ids : List Nat) : freshId ids ∉ ids := by
  unfold freshId
  cases h : (List.range (ids.length + 1)).find? fun n => !ids.contains n with
  | some n =>
    have hn := List.find?_some h
    simpa using hn
  | none =>
    exfalso
    have hall : ∀ n < ids.length + 1, n ∈ ids := by
      intro n hn
      have hn' := List.find?_eq_none.1 h n (List.mem_range.2 hn)
      simpa using hn'
    have hsub : Finset.range (ids.length + 1) ⊆ ids.toFinset := by
      intro n hn
      exact List.mem_toFinset.2 (hall n (Finset.mem_range.1 hn))
    have h1 := Finset.card_le_card hsub
    have h2 := List.toFinset_card_le ids
    rw [Finset.card_range] at h1
    omega

/-- R124, R130: room for a read in numbers. -/
theorem Sp.readRoom_iff (p : Sp) :
    p.readRoom = true ↔ p.reads.length < 32 ∧ p.live.length + p.writes.countP WriteRec.claimed < 16 := by
  unfold Sp.readRoom
  rw [Bool.and_eq_true, decide_eq_true_iff, decide_eq_true_iff]
  rfl

/-- R125, R130: room for a write in numbers. -/
theorem Sp.writeRoom_iff (p : Sp) :
    p.writeRoom = true ↔ p.writes.length < 16 ∧ p.live.length + p.writes.countP WriteRec.claimed < 16 := by
  unfold Sp.writeRoom
  rw [Bool.and_eq_true, decide_eq_true_iff, decide_eq_true_iff]
  rfl

/-! ### The window table and the granule maps -/

/-- R59: assigned offsets are running sums of the sizes of the enabled windows. -/
theorem assignOffsets_get (ws : List Window) (sum i : Nat) (w : Window) (h : (assignOffsets sum ws)[i]? = some w) :
    w.mapOffset = sum + (((((assignOffsets sum ws).take i).filter Window.enabled)).map Window.size).sum := by
  induction ws generalizing sum i with
  | nil => simp [assignOffsets] at h
  | cons x xs ih =>
    cases i with
    | zero =>
      simp only [assignOffsets, List.getElem?_cons_zero, Option.some.injEq] at h
      subst h
      simp
    | succ i =>
      simp only [assignOffsets, List.getElem?_cons_succ] at h
      rw [ih _ _ h]
      have he : Window.enabled { x with mapOffset := sum } = x.enabled := rfl
      simp only [assignOffsets, List.take_succ_cons, List.filter_cons, he]
      cases x.enabled <;> simp [Nat.add_assoc]

@[simp] theorem assignOffsets_length (ws : List Window) (sum : Nat) : (assignOffsets sum ws).length = ws.length := by
  induction ws generalizing sum with
  | nil => rfl
  | cons x xs ih => simp [assignOffsets, ih]

/-- R59: the table with its offsets recomputed, window by window. -/
theorem recomputeOffsets_eq (table : List Window) : recomputeOffsets table = table.mapIdx fun j x =>
    { x with mapOffset := (((table.take j).filter fun y => decide (y.kind ≠ .off)).map Window.size).sum } := by
  have assigned : ∀ ws before : List Window,
      assignOffsets ((before.filter Window.enabled).map Window.size).sum ws = ws.mapIdx fun j x =>
        { x with mapOffset := (((before ++ ws.take j).filter Window.enabled).map Window.size).sum } := by
    intro ws
    induction ws with
    | nil => intro before; rfl
    | cons x xs ih =>
      intro before
      have hx : ((before.filter Window.enabled).map Window.size).sum + (if x.enabled then x.size else 0) =
          (((before ++ [x]).filter Window.enabled).map Window.size).sum := by
        cases h : x.enabled <;> simp [h]
      rw [assignOffsets, hx, ih (before ++ [x]), List.mapIdx_cons]
      simp
  exact assigned table []

/-- R61, R62: a WINDOW_WRITE that passes stores a table whose offsets have been assigned. -/
theorem Win.replaced_eq {v : Win} {i : Nat} {t : List Window} (h : v.replaced i = some t) :
    ∃ d, v.staged = some d ∧ t = recomputeOffsets (v.table.set i d) ∧ (d.enabled = true → d.placeOk = true) ∧
      tableOk t = true := by
  unfold Win.replaced at h
  split at h
  · cases h
  · rename_i d hd
    simp only at h
    split at h
    · rename_i hc
      cases h
      rw [Bool.and_eq_true] at hc
      refine ⟨d, hd, rfl, fun he => ?_, hc.2⟩
      simpa [he] using hc.1
    · cases h

theorem Window.contains_iff (w : Window) (a : Addr) :
    w.contains a = true ↔ w.kind ≠ .off ∧ w.base.toNat ≤ a.toNat ∧ a.toNat < w.base.toNat + 4096 * w.size := by
  unfold Window.contains Window.enabled Window.endByte
  rw [Bool.and_eq_true, Bool.and_eq_true, decide_eq_true_iff, decide_eq_true_iff, decide_eq_true_iff, and_assoc]

/-- R65: where no two enabled windows share a byte, the window found for an address is the one that contains it. -/
theorem findWindowFrom_eq_some (ws : List Window) (i j : Nat) (a : Addr) (w : Window)
    (h : ws.Pairwise fun v w => v.kind ≠ .off → w.kind ≠ .off →
      v.base.toNat + 4096 * v.size ≤ w.base.toNat ∨ w.base.toNat + 4096 * w.size ≤ v.base.toNat) :
    findWindowFrom i a ws = some (j, w) ↔ i ≤ j ∧ ws[j - i]? = some w ∧ w.contains a = true := by
  induction ws generalizing i with
  | nil => simp [findWindowFrom]
  | cons x xs ih =>
    obtain ⟨hx, hxs⟩ := List.pairwise_cons.1 h
    unfold findWindowFrom
    by_cases hc : x.contains a = true
    · rw [if_pos hc, Option.some.injEq, Prod.mk.injEq]
      constructor
      · rintro ⟨rfl, rfl⟩
        exact ⟨Nat.le_refl _, by simp, hc⟩
      · rintro ⟨hij, hg, hw⟩
        rcases Nat.eq_or_lt_of_le hij with he | hlt
        · subst he
          exact ⟨rfl, by simpa using hg⟩
        · obtain ⟨d, hd⟩ : ∃ d, j - i = d + 1 := ⟨j - i - 1, by omega⟩
          rw [hd, List.getElem?_cons_succ] at hg
          obtain ⟨k1, k2, k3⟩ := (x.contains_iff a).1 hc
          obtain ⟨l1, l2, l3⟩ := (w.contains_iff a).1 hw
          rcases hx w (List.mem_of_getElem? hg) k1 l1 with hd | hd <;> omega
    · rw [if_neg hc, ih (i + 1) hxs]
      constructor
      · rintro ⟨hij, hg, hw⟩
        refine ⟨by omega, ?_, hw⟩
        obtain ⟨d, hd⟩ : ∃ d, j - i = d + 1 := ⟨j - i - 1, by omega⟩
        rw [hd, List.getElem?_cons_succ, ← hg]
        congr 1
        omega
      · rintro ⟨hij, hg, hw⟩
        rcases Nat.eq_or_lt_of_le hij with he | hlt
        · subst he
          simp only [Nat.sub_self, List.getElem?_cons_zero, Option.some.injEq] at hg
          exact absurd (hg ▸ hw) hc
        · obtain ⟨d, hd⟩ : ∃ d, j - i = d + 1 := ⟨j - i - 1, by omega⟩
          rw [hd, List.getElem?_cons_succ] at hg
          refine ⟨hlt, ?_, hw⟩
          rw [← hg]
          congr 1
          omega

/-- R65, R66: the IMAGE window of an address, where no two enabled windows share a byte. -/
theorem imageWindow_eq_some (table : List Window) (a : Addr) (i : Nat) (w : Window)
    (h : table.Pairwise fun v w => v.kind ≠ .off → w.kind ≠ .off →
      v.base.toNat + 4096 * v.size ≤ w.base.toNat ∨ w.base.toNat + 4096 * w.size ≤ v.base.toNat) :
    imageWindow table a = some (i, w) ↔ table[i]? = some w ∧ w.kind = .image ∧ w.contains a = true := by
  have hf := findWindowFrom_eq_some table 0 i a w h
  simp only [Nat.zero_le, Nat.sub_zero, true_and] at hf
  unfold imageWindow findWindow
  constructor
  · intro he
    split at he
    · rename_i j v hv
      split at he
      · rename_i hk
        cases he
        exact ⟨(hf.1 hv).1, hk, (hf.1 hv).2⟩
      · cases he
    · cases he
  · rintro ⟨hg, hk, hc⟩
    rw [hf.2 ⟨hg, hc⟩]
    simp [hk]

/-- R62: the disjointness that a WINDOW_WRITE checks, window against window. -/
theorem disjointTable_iff (ws : List Window) :
    disjointTable ws = true ↔ ws.Pairwise fun v w => v.kind ≠ .off → w.kind ≠ .off →
      v.base.toNat + 4096 * v.size ≤ w.base.toNat ∨ w.base.toNat + 4096 * w.size ≤ v.base.toNat := by
  induction ws with
  | nil => simp [disjointTable]
  | cons x xs ih =>
    simp only [disjointTable, Bool.and_eq_true, ih, List.pairwise_cons, List.all_eq_true]
    refine and_congr_left fun _ => forall_congr' fun w => imp_congr_right fun _ => ?_
    unfold Window.disjoint Window.enabled Window.endByte
    rw [Bool.or_eq_true, Bool.or_eq_true, Bool.or_eq_true, Bool.not_eq_true', Bool.not_eq_true', decide_eq_false_iff_not,
      decide_eq_false_iff_not, decide_eq_true_iff, decide_eq_true_iff]
    tauto

/-- R59: the assignment of offsets changes nothing else of a window. -/
theorem mem_assignOffsets (ws : List Window) (sum : Nat) (w : Window) (h : w ∈ assignOffsets sum ws) :
    ∃ x ∈ ws, w = { x with mapOffset := w.mapOffset } := by
  induction ws generalizing sum with
  | nil => simp [assignOffsets] at h
  | cons x xs ih =>
    rcases List.mem_cons.1 h with h | h
    · exact ⟨x, List.mem_cons_self, by rw [h]⟩
    · obtain ⟨y, hy, e⟩ := ih _ h
      exact ⟨y, List.mem_cons_of_mem _ hy, e⟩

/-- R60, R62, R63: the staged descriptor, where the checks on it pass, holds what a window of its kind holds. -/
theorem Win.staged_wellPlaced {v : Win} {d : Window} (h : v.staged = some d) (hp : d.enabled = true → d.placeOk = true) :
    (d.kind = .off → d.base = 0 ∧ d.size = 0 ∧ d.fill = 0) ∧
      (d.kind ≠ .off → d.base.toNat % 4096 = 0 ∧ 1 ≤ d.size ∧ d.size ≤ 16384 ∧ d.base.toNat + 4096 * d.size ≤ 2 ^ 40) ∧
      (d.kind = .image → d.fill = 0) := by
  refine ⟨?_, fun hk => ?_, ?_⟩
  · unfold Win.staged at h
    simp only at h
    split at h <;> cases h <;> simp [Window.off]
  · have hd := hp (by simp [Window.enabled, hk])
    unfold Window.placeOk Window.endByte at hd
    rw [Bool.and_eq_true, Bool.and_eq_true, Bool.and_eq_true, decide_eq_true_iff, decide_eq_true_iff, decide_eq_true_iff,
      decide_eq_true_iff] at hd
    tauto
  · unfold Win.staged at h
    simp only at h
    split at h <;> cases h <;> simp [Window.off]

/-- R58, R62, R63: a WINDOW_WRITE that passes its checks keeps the windows in their places and apart. -/
theorem State.windowsKept_replaced {s : State} {i : Nat} {t : List Window} (h : s.win.replaced i = some t)
    (hs : s.windowsKept) : State.windowsKept { s with win := { s.win with table := t } } := by
  obtain ⟨d, hd, ht, hp, hk⟩ := Win.replaced_eq h
  have hplace := Win.staged_wellPlaced hd hp
  unfold tableOk at hk
  rw [Bool.and_eq_true, Bool.and_eq_true, decide_eq_true_iff] at hk
  obtain ⟨⟨k1, k2⟩, k3⟩ := hk
  refine ⟨fun w hw => ?_, (disjointTable_iff t).1 k1, k2⟩
  have hw' : w ∈ t := hw
  obtain ⟨x, hx, e⟩ := mem_assignOffsets _ 0 w (ht ▸ hw' : w ∈ recomputeOffsets (s.win.table.set i d))
  have hfit : w.kind = .image → w.mapOffset + w.size ≤ 16384 := by
    have := List.all_eq_true.1 k3 w hw'
    rw [Bool.or_eq_true, decide_eq_true_iff, decide_eq_true_iff] at this
    exact fun hi => this.resolve_left (not_not.2 hi)
  have hx' : (x.kind = .off → x.base = 0 ∧ x.size = 0 ∧ x.fill = 0) ∧
      (x.kind ≠ .off → x.base.toNat % 4096 = 0 ∧ 1 ≤ x.size ∧ x.size ≤ 16384 ∧ x.base.toNat + 4096 * x.size ≤ 2 ^ 40) ∧
      (x.kind = .image → x.fill = 0) := by
    rcases List.mem_or_eq_of_mem_set hx with hx | rfl
    · exact ⟨(hs.1 x hx).1, (hs.1 x hx).2.1, fun k => ((hs.1 x hx).2.2 k).1⟩
    · exact hplace
  have e1 : w.kind = x.kind := by rw [e]
  have e2 : w.base = x.base := by rw [e]
  have e3 : w.size = x.size := by rw [e]
  have e4 : w.fill = x.fill := by rw [e]
  rw [← e1, ← e2, ← e3, ← e4] at hx'
  exact ⟨hx'.1, hx'.2.1, fun k => ⟨hx'.2.2 k, hfit k⟩⟩

/-- R67: the marks after one more granule is marked. -/
theorem mem_insertMark (p q : Nat) (ps : List Nat) : q ∈ insertMark p ps ↔ q = p ∨ q ∈ ps := by
  induction ps with
  | nil => simp [insertMark]
  | cons x xs ih =>
    unfold insertMark
    split
    · simp
    · split
      · subst p; simp
      · simp [ih]; tauto

/-- R70: the marks of a union. -/
theorem mem_unionMarks (q : Nat) (ps qs : List Nat) : q ∈ unionMarks ps qs ↔ q ∈ ps ∨ q ∈ qs := by
  induction ps with
  | nil => simp [unionMarks]
  | cons p ps ih =>
    show q ∈ insertMark p (unionMarks ps qs) ↔ _
    rw [mem_insertMark, ih]
    simp [or_assoc]

/-! ### The frame plan -/

/-- R77, R79: placing FILL frames moves the copier on and fills slots, and changes nothing else; each frame placed takes the
next place of the plan and the next slot, never more than there are. -/
theorem State.placeFills_eq (k : Nat) (s : State) :
    ∃ n more, State.placeFills k s =
        { s with cap := { s.cap with pos := s.cap.pos + n, fillBuilt := s.cap.fillBuilt + n }
                 lnk := { s.lnk with slots := s.lnk.slots ++ more } } ∧
      more.map Slot.seq = List.range' s.cap.pos n ∧ more.length = n ∧
      (∀ q ∈ more, q.st = .ready ∧ q.frame.isEnd = false) ∧
      (s.lnk.slots.length ≤ 16 → s.lnk.slots.length + n ≤ 16) := by
  induction k generalizing s with
  | zero => exact ⟨0, [], by simp [State.placeFills], by simp, rfl, by simp, by simp⟩
  | succ k ih =>
    have none : State.placeFills (k + 1) s = s → ∃ n more, State.placeFills (k + 1) s =
        { s with cap := { s.cap with pos := s.cap.pos + n, fillBuilt := s.cap.fillBuilt + n }
                 lnk := { s.lnk with slots := s.lnk.slots ++ more } } ∧
      more.map Slot.seq = List.range' s.cap.pos n ∧ more.length = n ∧
      (∀ q ∈ more, q.st = .ready ∧ q.frame.isEnd = false) ∧
      (s.lnk.slots.length ≤ 16 → s.lnk.slots.length + n ≤ 16) := fun h =>
        ⟨0, [], by rw [h]; simp, by simp, rfl, by simp, by simp⟩
    cases hn : s.cap.next with
    | none => exact none (by simp [State.placeFills, hn])
    | some p =>
      cases p with
      | fill i =>
        by_cases hf : s.lnk.slotFree = true
        · obtain ⟨n, more, h1, h2, h3, h4, h5⟩ := ih (s.placeFill i)
          refine ⟨n + 1, { st := .ready, seq := s.cap.pos, frame := s.fillFrame i, issued := 0 } :: more, ?_, ?_, ?_, ?_, ?_⟩
          · simp only [State.placeFills, hn, hf, if_true, h1]
            simp [State.placeFill, Lnk.place, Nat.add_comm, Nat.add_left_comm]
          · simp [h2, State.placeFill, List.range'_succ]
          · simp [h3]
          · intro q hq
            rcases List.mem_cons.1 hq with hq | hq
            · subst hq; exact ⟨rfl, rfl⟩
            · exact h4 q hq
          · intro h16
            have hlt : s.lnk.slots.length < 16 := of_decide_eq_true hf
            have := h5 (by simp [State.placeFill, Lnk.place]; omega)
            simp [State.placeFill, Lnk.place] at this
            omega
        · exact none (by simp [State.placeFills, hn, hf])
      | opening => exact none (by simp [State.placeFills, hn])
      | data w g c => exact none (by simp [State.placeFills, hn])
      | closing => exact none (by simp [State.placeFills, hn])

/-- R6, R77, R79: a freeze point changes the freeze controller, the maps, the copier, the link controller and the alerts; OPEN
and the FILL frames that come next in the plan, `n` of them, stand in slots in their order. -/
theorem State.beginEpoch_eq (s : State) (src : Source) (k : Kind) :
    ∃ n more,
      s.beginEpoch src k =
        { s with
          frz := s.frz.beginEpoch src k
          maps := s.maps.swap
          cap := { s.cap.begin (framePlan (kindPerformed k s.frz.baseline) s.maps.coll s.win.table)
              (granuleCount (kindPerformed k s.frz.baseline) s.maps.coll s.win.table) s.sp.live.length with
            pos := 1 + n, fillBuilt := n }
          lnk := { s.lnk.begin s.frz.nextEpoch (.opening s.frz.nextEpoch (kindPerformed k s.frz.baseline)
              (descriptorsFrom 0 s.win.table)
              (granuleCount (kindPerformed k s.frz.baseline) s.maps.coll s.win.table)) with
            slots := { st := .ready, seq := 0, issued := 0,
                       frame := .opening s.frz.nextEpoch (kindPerformed k s.frz.baseline)
                         (descriptorsFrom 0 s.win.table)
                         (granuleCount (kindPerformed k s.frz.baseline) s.maps.coll s.win.table) } :: more }
          alert := s.alert.raise .epochBegun } ∧
      more.map Slot.seq = List.range' 1 n ∧ more.length = n ∧ (∀ q ∈ more, q.st = .ready ∧ q.frame.isEnd = false) ∧
      1 + n ≤ 16 := by
  unfold State.beginEpoch
  simp only
  obtain ⟨n, more, h1, h2, h3, h4, h5⟩ := State.placeFills_eq Config.slotCount
    { s with
      frz := s.frz.beginEpoch src k
      maps := s.maps.swap
      cap := s.cap.begin (framePlan (kindPerformed k s.frz.baseline) s.maps.swap.img s.win.table)
        (granuleCount (kindPerformed k s.frz.baseline) s.maps.swap.img s.win.table) s.sp.live.length
      lnk := s.lnk.begin s.frz.nextEpoch (.opening s.frz.nextEpoch (kindPerformed k s.frz.baseline)
        (descriptorsFrom 0 s.win.table)
        (granuleCount (kindPerformed k s.frz.baseline) s.maps.swap.img s.win.table)) }
  refine ⟨n, more, ?_, h2, h3, h4, h5 (by simp [Lnk.begin])⟩
  rw [h1]
  simp [State.raise, Cap.begin, Lnk.begin, Maps.swap]

/-- R5: no number after another is 0. -/
theorem nextNumber_ne_zero (n : Word16) : nextNumber n ≠ 0 := by
  unfold nextNumber
  split
  · decide
  · rename_i h
    intro h0
    exact h (by bv_omega)

end Sys2Proof.Machine
end

