-- ==== Sys2Proof/Laws/Safety.lean ====
section
/-! SUPPORT. What each state of Safety.lean holds in each field: one lemma per field, true by definition. -/

namespace Sys2Proof.Machine

/-! ### State.frameEnded -/

@[simp] theorem State.frameEnded_frz (s : State) : s.frameEnded.frz = s.frz := rfl
@[simp] theorem State.frameEnded_jrn (s : State) : s.frameEnded.jrn = s.jrn := rfl
@[simp] theorem State.frameEnded_win (s : State) : s.frameEnded.win = s.win := rfl
@[simp] theorem State.frameEnded_maps (s : State) : s.frameEnded.maps = s.maps := rfl
@[simp] theorem State.frameEnded_cap (s : State) : s.frameEnded.cap = s.cap := rfl
@[simp] theorem State.frameEnded_lnk (s : State) : s.frameEnded.lnk = s.lnk := rfl
@[simp] theorem State.frameEnded_sp (s : State) : s.frameEnded.sp = s.sp := rfl
@[simp] theorem State.frameEnded_mp (s : State) : s.frameEnded.mp = s.mp := rfl
@[simp] theorem State.frameEnded_mgmt (s : State) : s.frameEnded.mgmt = { s.mgmt with rx := Receiver.idle } := rfl
@[simp] theorem State.frameEnded_alert (s : State) : s.frameEnded.alert = s.alert := rfl
@[simp] theorem State.frameEnded_stats (s : State) : s.frameEnded.stats = s.stats := rfl
@[simp] theorem State.frameEnded_resetting (s : State) : s.frameEnded.resetting = s.resetting := rfl
@[simp] theorem State.frameEnded_pending (s : State) : s.frameEnded.pending = s.pending := rfl
@[simp] theorem State.frameEnded_out (s : State) : s.frameEnded.out = s.out := rfl

/-! ### State.accessed -/

@[simp] theorem State.accessed_frz (s : State) (reg : BitVec 9) (l : Latch) : (s.accessed reg l).frz = s.frz := rfl
@[simp] theorem State.accessed_jrn (s : State) (reg : BitVec 9) (l : Latch) : (s.accessed reg l).jrn = s.jrn := rfl
@[simp] theorem State.accessed_win (s : State) (reg : BitVec 9) (l : Latch) : (s.accessed reg l).win = s.win := rfl
@[simp] theorem State.accessed_maps (s : State) (reg : BitVec 9) (l : Latch) : (s.accessed reg l).maps = s.maps := rfl
@[simp] theorem State.accessed_cap (s : State) (reg : BitVec 9) (l : Latch) : (s.accessed reg l).cap = s.cap := rfl
@[simp] theorem State.accessed_lnk (s : State) (reg : BitVec 9) (l : Latch) : (s.accessed reg l).lnk = s.lnk := rfl
@[simp] theorem State.accessed_sp (s : State) (reg : BitVec 9) (l : Latch) : (s.accessed reg l).sp = s.sp := rfl
@[simp] theorem State.accessed_mp (s : State) (reg : BitVec 9) (l : Latch) : (s.accessed reg l).mp = s.mp := rfl
@[simp] theorem State.accessed_mgmt (s : State) (reg : BitVec 9) (l : Latch) :
    (s.accessed reg l).mgmt =
      { s.mgmt with rx := Receiver.idle, lastReg := reg, latch := l } := rfl
@[simp] theorem State.accessed_alert (s : State) (reg : BitVec 9) (l : Latch) :
    (s.accessed reg l).alert =
      s.alert := rfl
@[simp] theorem State.accessed_stats (s : State) (reg : BitVec 9) (l : Latch) :
    (s.accessed reg l).stats =
      s.stats := rfl
@[simp] theorem State.accessed_resetting (s : State) (reg : BitVec 9) (l : Latch) :
    (s.accessed reg l).resetting =
      s.resetting := rfl
@[simp] theorem State.accessed_pending (s : State) (reg : BitVec 9) (l : Latch) :
    (s.accessed reg l).pending =
      s.pending := rfl
@[simp] theorem State.accessed_out (s : State) (reg : BitVec 9) (l : Latch) : (s.accessed reg l).out = s.out := rfl

/-! ### State.taken -/

@[simp] theorem State.taken_frz (s : State) (code : Nat) : (s.taken code).frz = s.frz := rfl
@[simp] theorem State.taken_jrn (s : State) (code : Nat) : (s.taken code).jrn = s.jrn := rfl
@[simp] theorem State.taken_win (s : State) (code : Nat) : (s.taken code).win = s.win := rfl
@[simp] theorem State.taken_maps (s : State) (code : Nat) : (s.taken code).maps = s.maps := rfl
@[simp] theorem State.taken_cap (s : State) (code : Nat) : (s.taken code).cap = s.cap := rfl
@[simp] theorem State.taken_lnk (s : State) (code : Nat) : (s.taken code).lnk = s.lnk := rfl
@[simp] theorem State.taken_sp (s : State) (code : Nat) : (s.taken code).sp = s.sp := rfl
@[simp] theorem State.taken_mp (s : State) (code : Nat) : (s.taken code).mp = s.mp := rfl
@[simp] theorem State.taken_mgmt (s : State) (code : Nat) :
    (s.taken code).mgmt =
      { s.mgmt with rx := Receiver.idle, lastReg := 0, latch := .invalid, busy := true, rejected := false,
                    result := .none, code := code } := rfl
@[simp] theorem State.taken_alert (s : State) (code : Nat) : (s.taken code).alert = s.alert := rfl
@[simp] theorem State.taken_stats (s : State) (code : Nat) : (s.taken code).stats = s.stats := rfl
@[simp] theorem State.taken_resetting (s : State) (code : Nat) : (s.taken code).resetting = s.resetting := rfl
@[simp] theorem State.taken_pending (s : State) (code : Nat) : (s.taken code).pending = s.pending := rfl
@[simp] theorem State.taken_out (s : State) (code : Nat) : (s.taken code).out = s.out := rfl

/-! ### State.commanded -/

@[simp] theorem State.commanded_frz (s : State) (code : Nat) (r : CmdResult) : (s.commanded code r).frz = s.frz := rfl
@[simp] theorem State.commanded_jrn (s : State) (code : Nat) (r : CmdResult) : (s.commanded code r).jrn = s.jrn := rfl
@[simp] theorem State.commanded_win (s : State) (code : Nat) (r : CmdResult) : (s.commanded code r).win = s.win := rfl
@[simp] theorem State.commanded_maps (s : State) (code : Nat) (r : CmdResult) :
    (s.commanded code r).maps =
      s.maps := rfl
@[simp] theorem State.commanded_cap (s : State) (code : Nat) (r : CmdResult) : (s.commanded code r).cap = s.cap := rfl
@[simp] theorem State.commanded_lnk (s : State) (code : Nat) (r : CmdResult) : (s.commanded code r).lnk = s.lnk := rfl
@[simp] theorem State.commanded_sp (s : State) (code : Nat) (r : CmdResult) : (s.commanded code r).sp = s.sp := rfl
@[simp] theorem State.commanded_mp (s : State) (code : Nat) (r : CmdResult) : (s.commanded code r).mp = s.mp := rfl
@[simp] theorem State.commanded_mgmt (s : State) (code : Nat) (r : CmdResult) :
    (s.commanded code r).mgmt =
      { s.mgmt with rx := Receiver.idle, lastReg := 0, latch := .invalid, busy := false, rejected := false,
                    result := r, code := code } := rfl
@[simp] theorem State.commanded_alert (s : State) (code : Nat) (r : CmdResult) :
    (s.commanded code r).alert =
      s.alert.raise .cmdDone := rfl
@[simp] theorem State.commanded_stats (s : State) (code : Nat) (r : CmdResult) :
    (s.commanded code r).stats =
      s.stats := rfl
@[simp] theorem State.commanded_resetting (s : State) (code : Nat) (r : CmdResult) :
    (s.commanded code r).resetting =
      s.resetting := rfl
@[simp] theorem State.commanded_pending (s : State) (code : Nat) (r : CmdResult) :
    (s.commanded code r).pending =
      s.pending := rfl
@[simp] theorem State.commanded_out (s : State) (code : Nat) (r : CmdResult) : (s.commanded code r).out = s.out := rfl

end Sys2Proof.Machine
end

