-- ==== Sys2Proof/Laws/Registers.lean ====
section
/-! SUPPORT. Whole management frames in the words of Safety.lean: which register an access reaches, and what a write row and a
read row come to once the frame has been followed to its end. -/

namespace Sys2Proof.Machine

/-! ### The register map -/

theorem regAt_reg (r : Reg) : regAt r.number = .word r := by cases r <;> rfl

theorem regAt_low (p : Pair) : regAt p.number = .low p := by cases p <;> rfl

theorem regAt_high (p : Pair) : regAt (p.number + 1) = .high p := by cases p <;> rfl

/-- R191: a number that is no register's and no half of a pair's is unimplemented. -/
theorem regAt_unimplemented (n : Nat) (hr : ∀ r : Reg, n ≠ r.number) (hp : ∀ p : Pair, n ≠ p.number ∧ n ≠ p.number + 1) :
    regAt n = .unimplemented := by
  have h1 : allRegs.find? (fun r => r.number == n) = none :=
    List.find?_eq_none.2 fun r _ => by simpa using (hr r).symm
  have h2 : allPairs.find? (fun p => p.number == n) = none :=
    List.find?_eq_none.2 fun p _ => by simpa using (hp p).1.symm
  have h3 : allPairs.find? (fun p => p.number + 1 == n) = none :=
    List.find?_eq_none.2 fun p _ => by simpa using (hp p).2.symm
  rw [regAt, h1, h2, h3]

theorem Pair.toNat_low (p : Pair) : (BitVec.ofNat 9 p.number).toNat = p.number := by cases p <;> rfl

theorem Pair.toNat_high (p : Pair) : (BitVec.ofNat 9 (p.number + 1)).toNat = p.number + 1 := by cases p <;> rfl

/-! ### Writes -/

/-- A WRITE row sends its frame. -/
theorem exec_writeRow {c : Instr} {w : WriteLine} {reg : BitVec 9} {v : Word16} (s : State)
    (h : writeRow c = some (w, reg, v)) : exec c s = .next (s.sendWrite w reg v) := by
  cases c <;> simp only [writeRow, Option.some.injEq, Prod.mk.injEq, reduceCtorEq] at h <;>
    obtain ⟨rfl, rfl, rfl⟩ := h <;> rfl

/-- R159: a WRITE of a 16-bit register. -/
theorem State.sendWrite_word (s : State) (w : WriteLine) (n : BitVec 9) (v : Word16) (r : Reg) (hr : regAt n.toNat = .word r)
    (hw : w.good) (hs : s.hunting) : s.sendWrite w n v = (s.accessed n .invalid).writeReg r v := by
  rw [State.sendWrite_good s w n v hw.1 hs hw.2]
  simp only [State.writeAccess, hr]
  simp [State.setRx, State.setLatch, State.accessed]

/-- R166: a WRITE of the low half of a pair. -/
theorem State.sendWrite_low (s : State) (w : WriteLine) (n : BitVec 9) (v : Word16) (p : Pair) (hr : regAt n.toNat = .low p)
    (hw : w.good) (hs : s.hunting) : s.sendWrite w n v = s.accessed n (.lowWritten p v) := by
  rw [State.sendWrite_good s w n v hw.1 hs hw.2]
  simp only [State.writeAccess, hr]
  simp [State.setRx, State.setLatch, State.accessed]

/-- R166: a WRITE of the high half of a pair. -/
theorem State.sendWrite_high (s : State) (w : WriteLine) (n : BitVec 9) (v : Word16) (p : Pair)
    (hr : regAt n.toNat = .high p) (hw : w.good) (hs : s.hunting) :
    s.sendWrite w n v = (s.accessed n .invalid).commitPair p (v ++ s.joinedLow p) := by
  have hj : ∀ (g : Mgmt), g.latch = s.mgmt.latch → g.hist = s.mgmt.hist →
      State.joinedLow { s with mgmt := g } p = s.joinedLow p := by
    intro g h1 h2
    have hp : State.readPair { s with mgmt := g } p = s.readPair p := by cases p <;> simp [State.readPair, h2]; rfl
    simp only [State.joinedLow, h1, hp]
  rw [State.sendWrite_good s w n v hw.1 hs hw.2]
  simp only [State.writeAccess, hr]
  simp only [State.setRx, State.setLatch, State.accessed, BitVec.ofNat_toNat, BitVec.setWidth_eq]
  rw [hj { s.mgmt with rx := Receiver.idle, lastReg := n } rfl rfl]

/-- R191: a WRITE of a number the map does not list. -/
theorem State.sendWrite_unimplemented (s : State) (w : WriteLine) (n : BitVec 9) (v : Word16)
    (hr : regAt n.toNat = .unimplemented) (hw : w.good) (hs : s.hunting) : s.sendWrite w n v = s.accessed n .invalid := by
  rw [State.sendWrite_good s w n v hw.1 hs hw.2]
  simp only [State.writeAccess, hr]
  simp [State.setRx, State.setLatch, State.accessed]

/-- R169: a WRITE to CMD while no command is busy takes the command. -/
theorem State.sendWrite_cmd (s : State) (w : WriteLine) (v : Word16) (hw : w.good) (hs : s.hunting)
    (hb : s.mgmt.busy = false) : s.sendWrite w 0 v = (s.accessed 0 .invalid).takeCommand v.toNat := by
  rw [s.sendWrite_word w 0 v .cmd (by rfl) hw hs]
  have hb' : (s.accessed 0 .invalid).mgmt.busy = false := hb
  simp only [State.writeReg, State.writeCmd, hb', Bool.not_false, if_true]

/-! ### Reads -/

/-- R158: the parity bit driven, over header and data in the order they are sent. -/
theorem readParity_reverse (header : List Bool) (v : Word16) :
    readParity header.reverse v = oddOnes (header ++ msbBits 16 v.toNat) := by
  unfold readParity
  refine oddOnes_congr ?_
  simp [msbBits, List.count_append]

/-- R158: what a read frame leaves, in the words of `State.driven`. -/
theorem State.afterRead_eq (s : State) (op : Nat) (field : BitVec 9) (n : Nat) :
    s.afterRead (headerBits op s.mgmt.straps field) n =
      { (s.frameEnded.readAccess n).2 with
        out := (s.frameEnded.readAccess n).2.out ++ [s.driven op field (s.frameEnded.readAccess n).1] } := by
  have h : s.frameEnded.readAccess n = ((s.readAccess n).1, (s.readAccess n).2.setRx Receiver.idle) :=
    s.readAccess_setRx Receiver.idle n
  rw [h]
  simp only [State.afterRead, State.emit, readParity_reverse, State.driven]

/-- R160: the register a READ_NEXT accesses. -/
theorem State.toNat_nextReg (s : State) : (s.mgmt.lastReg + 1).toNat = s.nextReg := by
  simp [State.nextReg, BitVec.toNat_add]

/-- A READ row sends its frame, of the register it names or of the next one. -/
theorem exec_readRow {c : Instr} {l : Line} {op : Nat} {field reg : BitVec 9} (s : State)
    (h : readRow s c = some (l, op, field, reg)) :
    exec c s = .next (s.feed (lineBits l (readFrame (headerBits op s.mgmt.straps field)))) ∧
      ((op = 1 ∧ reg = field) ∨ (op = 3 ∧ reg.toNat = s.nextReg)) := by
  cases c <;> simp only [readRow, Option.some.injEq, Prod.mk.injEq, reduceCtorEq] at h <;> obtain ⟨rfl, rfl, rfl, rfl⟩ := h
  · exact ⟨rfl, .inr ⟨rfl, s.toNat_nextReg⟩⟩
  all_goals exact ⟨rfl, .inl ⟨rfl, rfl⟩⟩

/-- R158, R160: a READ row, whole and after a full preamble, is a read access of its register. -/
theorem exec_readRow_eq {c : Instr} {l : Line} {op : Nat} {field reg : BitVec 9} (s : State)
    (h : readRow s c = some (l, op, field, reg)) (hl : l.wf = true) (hs : s.hunting) :
    exec c s = .next (s.afterRead (headerBits op s.mgmt.straps field) reg.toNat) := by
  obtain ⟨he, ⟨rfl, rfl⟩ | ⟨rfl, hn⟩⟩ := exec_readRow s h
  · rw [he]; exact congrArg _ (State.sendRead_eq s l reg hl hs)
  · rw [he, hn]; exact congrArg _ (State.feed_readNext s l field hl hs)

end Sys2Proof.Machine
end

