-- ==== Sys2Proof/Laws/Steps.lean ====
section
/-! SUPPORT. Induction over steps: a property of states that survives each operation a row is made of survives every step. A
proof of an invariant fills in `StepClosed`, whose fields carry what is known where the operation is used, and cites
`StepClosed.step`. -/

namespace Sys2Proof.Machine

/-- What a completion is made of, as conditions on a property of states. -/
structure CompletionClosed (P : State → Prop) : Prop where
  alert : ∀ (s : State) (a : Alert), P s → P { s with alert := a }
  stats : ∀ (s : State) (st : Stats), P s → P { s with stats := st }
  out : ∀ (s : State) (o : List Output), P s → P { s with out := o }
  retire : ∀ (s : State) (e : MemEntry) (rest : List MemEntry), s.mp.queue = e :: rest → e.issued = true → P s →
    P { s with mp := s.mp.retire rest }
  send : ∀ s : State, P s → P s.sendToMemory
  dropRead : ∀ (s : State) (id : Nat), P s →
    P { s with sp := { s.sp with reads := s.sp.reads.filter fun q => decide (q.id ≠ id) } }
  dropWrite : ∀ (s : State) (id : Nat), P s →
    P { s with sp := { s.sp with writes := s.sp.writes.filter fun q => decide (q.id ≠ id) } }
  drainDone : ∀ (s : State) (b : Addr) (e : JEntry) (ok : Bool), s.jrn.find b = some e → P s → P (s.drainDone e ok)
  copierDone : ∀ (s : State) (ok : Bool) (data : Block), P s → P (s.copierDone ok data)

namespace CompletionClosed

variable {P : State → Prop} (c : CompletionClosed P)
include c

theorem handOver (s : State) (e : MemEntry) (ok : Bool) (data : Block) (h : P s) : P (s.handOver e ok data) := by
  unfold State.handOver
  split
  · unfold State.liveReadDone
    split
    · simp only
      split
      · exact c.out _ _ (c.dropRead s _ h)
      · exact c.out _ _ (c.stats _ _ (c.alert _ _ (c.dropRead s _ h)))
    · exact h
  · unfold State.liveWriteDone
    split
    · simp only
      split
      · exact c.out _ _ (c.dropWrite s _ h)
      · exact c.out _ _ (c.stats _ _ (c.alert _ _ (c.dropWrite s _ h)))
    · exact h
  · split
    · exact c.drainDone s _ _ ok ‹_› h
    · exact h
  · exact c.copierDone s ok data h

/-- A completion keeps the property. -/
theorem complete (s : State) (e : MemEntry) (rest : List MemEntry) (ok : Bool) (data : Block) (hq : s.mp.queue = e :: rest)
    (hi : e.issued = true) (h : P s) :
    P ((State.sendToMemory { s with mp := s.mp.retire rest }).handOver e ok data) :=
  c.handOver _ _ _ _ (c.send _ (c.retire s _ _ hq hi h))

end CompletionClosed

/-- What a step is made of, as conditions on a property of states. -/
structure StepClosed (P : State → Prop) : Prop extends WriteClosed P where
  pending : ∀ (s : State) (cs : List Instr), P s → P { s with pending := cs }
  rx : ∀ (s : State) (r : Receiver), P s → P (s.setRx r)
  tickLen : ∀ s : State, P s → P { s with mgmt := { s.mgmt with tickLen := s.mgmt.tickDiv } }
  out : ∀ (s : State) (o : List Output), P s → P { s with out := o }
  powerOn : ∀ (straps : BitVec 4) (high : Bool) (cs : List Instr) (o : List Output),
    P { State.reset with mgmt := { Mgmt.reset with straps := straps }, frz := { Frz.reset with lineSeenLow := high },
                         pending := cs, out := o }
  finalStep : ∀ s : State, s.resetReady = true → P s → P s.finalStep
  portReset : ∀ s : State, P s → P { s with sp := s.sp.portReset s.resetting, frz := s.frz.portReset }
  lineSeenLow : ∀ (s : State) (b : Bool), P s → P { s with frz := { s.frz with lineSeenLow := b } }
  freeze : ∀ (s : State) (src : Source) (k : Kind), s.canFreeze = true → P s → P (s.freezePoint src k)
  evaluate : ∀ s : State, P s → P s.evaluate
  linkUp : ∀ s : State, P s → P { s with lnk := { s.lnk with up := true } }
  lose : ∀ s : State, P s → P { s with lnk := s.lnk.lose }
  arriveRead : ∀ (s : State) (q : ReadReq), s.sp.rcred ≠ 0 → P s →
    P { s with sp := { s.sp with rlane := s.sp.rlane ++ [q], rcred := s.sp.rcred - 1 } }
  arriveWrite : ∀ (s : State) (q : WriteReq), s.sp.wcred ≠ 0 → P s →
    P { s with sp := { s.sp with wlane := s.sp.wlane ++ [q], wcred := s.sp.wcred - 1 } }
  popRead : ∀ s : State, s.sp.rlane ≠ [] → P s → P { s with sp := s.sp.popRead s.resetting }
  popWrite : ∀ s : State, s.sp.wlane ≠ [] → s.frz.stall = none → P s → P { s with sp := s.sp.popWrite s.resetting }
  addRead : ∀ (s : State) (r : ReadReq) (c : Option Capture), s.sp.readRoom = true → P s →
    P { s with sp := s.sp.addRead r c }
  straight : ∀ (s : State) (w : WriteReq), s.sp.wlane ≠ [] → s.frz.stall = none → s.sp.writeRoom = true → P s →
    P (s.takeStraight w)
  merge : ∀ (s : State) (w : WriteReq), s.sp.wlane ≠ [] → s.frz.stall = none → s.handling w = .merge → P s → P (s.takeMerge w)
  allocate : ∀ (s : State) (w : WriteReq) (i : Nat), s.sp.wlane ≠ [] → s.frz.stall = none →
    s.handling w = .allocate i → P s → P (s.takeAllocate w i)
  exhaust : ∀ (s : State) (w : WriteReq), s.sp.wlane ≠ [] → s.frz.stall = none → s.handling w = .exhaustion →
    s.sp.writeRoom = true → P s → P (s.exhaust w)
  lineWaits : ∀ (s : State) (k : Kind), s.frz.slot = none → P s →
    P { s with frz := { s.frz with slot := some { source := .line, kind := k } } }
  markerWaits : ∀ (s : State) (w : WriteReq) (k : Kind), s.sp.wlane ≠ [] → s.frz.stall = none → s.frz.slot = none →
    s.sp.writeRoom = true → P s →
    P (State.beginStall { s with frz := { s.frz with slot := some { source := .marker, kind := k } } } .marker w)
  send : ∀ s : State, P s → P s.sendToMemory
  grant : ∀ (s : State), s.grantPossible = true → P s →
    P (State.grantTo { s with mp := (Mp.seek s.hasWork arbiterLooks s.mp).won }
      (Mp.seek s.hasWork arbiterLooks s.mp).pos)
  complete : ∀ (s : State) (e : MemEntry) (rest : List MemEntry) (ok : Bool) (data : Block), s.mp.queue = e :: rest →
    e.issued = true → P s → P ((State.sendToMemory { s with mp := s.mp.retire rest }).handOver e ok data)
  placeFill : ∀ (s : State) (i : Nat), s.cap.next = some (.fill i) → s.cap.st ≠ .idle → s.lnk.slotFree = true → P s →
    P (s.placeFill i)
  placeEnd : ∀ s : State, s.cap.next = some .closing → s.cap.st = .closing → s.lnk.slotFree = true → P s → P s.placeEnd
  startFrame : ∀ (s : State) (q : Slot), s.lnk.startable = some q → P s → P (s.startFrame q)
  lineBusy : ∀ (s : State) (a : Option (Word16 × BreakCause)) (f : Option Frame), P s →
    P { s with lnk := { s.lnk with abandon := a, tx := f } }
  acknowledge : ∀ (s : State) (n : Nat), s.lnk.ackPt ≤ n → n < s.lnk.sentCnt → s.frz.active = true → P s →
    P { s with lnk := { s.lnk.ackBelow (n + 1) with retry := 0, ackTimer := 0 } }
  nakRound : ∀ (s : State) (n : Nat), s.lnk.ackPt ≤ n → n < s.lnk.sentCnt → s.frz.active = true → P s →
    P (State.startRound { s with lnk := s.lnk.ackBelow n } n)
  setPause : ∀ (s : State) (q : Nat), P s → P { s with lnk := s.lnk.setPause q }
  commit : ∀ (s : State) (epoch : Word16), s.frz.active = true → s.lnk.ctl = .awaitCommit → P s →
    P (State.commitEpoch { s with lnk := s.lnk.acceptCommit s.cap.plan.length epoch })
  rejected : ∀ (s : State) (r : RejectReason) (b : Bool), P s →
    P { s with lnk := { s.lnk with lastReject := r }, frz := { s.frz with baseline := b } }
  ticks : ∀ s : State, P s → P s.advanceTimers

namespace StepClosed

variable {P : State → Prop} (c : StepClosed P)
include c

theorem plainWrite (s : State) (w : WriteReq) (hw : s.sp.wlane ≠ []) (hs : s.frz.stall = none) (h : P s) :
    P (s.plainWrite w) := by
  unfold State.plainWrite
  split
  · exact c.merge s w hw hs ‹_› h
  · exact c.allocate s w _ hw hs ‹_› h
  · split
    · exact c.exhaust s w hw hs ‹_› ‹_› h
    · exact h
  · split
    · exact c.straight s w hw hs ‹_› h
    · exact h

theorem markerRefused (s : State) (h : P s) : P s.markerRefused := c.stats _ _ (c.alert _ _ h)

theorem markerWrite (s : State) (w : WriteReq) (hw : s.sp.wlane ≠ []) (hs : s.frz.stall = none)
    (hr : s.sp.writeRoom = true) (h : P s) : P (s.markerWrite w) := by
  unfold State.markerWrite
  split
  · exact c.plainWrite s.markerRefused w hw hs (c.markerRefused s h)
  · split
    · exact c.freeze (s.takeStraight w) _ _ ‹_› (c.straight s w hw hs hr h)
    · split
      · exact c.plainWrite s.markerRefused w hw hs (c.markerRefused s h)
      · rename_i hn
        rw [not_or, Bool.not_eq_true, Option.isSome_eq_false_iff, Option.isNone_iff_eq_none] at hn
        exact c.markerWaits s w _ hw hs hn.2 hr h

theorem takeRead (s : State) (h : P s) :
    P (match s.sp.rlane with | r :: _ => s.examineRead r | [] => s) := by
  split
  · rename_i r rest e
    have hr : s.sp.rlane ≠ [] := by simp [e]
    unfold State.examineRead
    split
    · exact c.out _ _ (c.stats _ _ (c.popRead s hr h))
    · split
      · exact c.out _ _ (c.stats _ _ (c.popRead s hr h))
      · split
        · exact c.out _ _ (c.popRead s hr h)
        · split
          · exact c.out _ _ (c.popRead { s with sp := s.sp.addRead r (s.capture r) } hr (c.addRead s r (s.capture r) ‹_› h))
          · exact h
  · exact h

theorem takeWrite (s : State) (h : P s) :
    P (match s.sp.wlane with | w :: _ => if s.frz.stall.isSome then s else s.examineWrite w | [] => s) := by
  split
  · rename_i w rest e
    have hw : s.sp.wlane ≠ [] := by simp [e]
    split
    · exact h
    · rename_i hs
      have hs : s.frz.stall = none := by simpa using hs
      unfold State.examineWrite
      split
      · exact c.out _ _ (c.stats _ _ (c.popWrite s hw hs h))
      · split
        · exact c.out _ _ (c.stats _ _ (c.popWrite s hw hs h))
        · split
          · split
            · exact c.markerWrite s w hw hs ‹_› h
            · exact h
          · exact c.plainWrite s w hw hs h
  · exact h

theorem notCurrent (s : State) (k : EpochClass) (h : P s) : P (s.notCurrent k) := by
  unfold State.notCurrent
  split
  · exact c.breakEpoch _ _ h
  · exact c.stats _ _ h

omit c in
theorem active_of_current {s : State} {epoch : Word16} (h : s.classOf epoch = .current) : s.frz.active = true := by
  unfold State.classOf at h
  split at h
  · exact And.left ‹_›
  · split at h <;> cases h

theorem receiveAck (s : State) (epoch : Word16) (n : Word32) (h : P s) : P (s.receiveAck epoch n) := by
  unfold State.receiveAck
  split
  · have ha := active_of_current ‹_›
    unfold State.ackCurrent
    split
    · exact c.stats _ _ h
    · split
      · exact c.breakEpoch _ _ h
      · exact c.acknowledge s _ (by omega) (by omega) ha h
  · exact c.notCurrent s _ h

theorem receiveNak (s : State) (epoch : Word16) (n : Word32) (h : P s) : P (s.receiveNak epoch n) := by
  unfold State.receiveNak
  split
  · have ha := active_of_current ‹_›
    have h' : P (s.count .naksRcvd) := c.stats _ _ h
    unfold State.nakCurrent
    split
    · exact c.breakEpoch _ _ h'
    · rename_i hn
      have hn' : ¬(n.toNat < s.lnk.ackPt ∨ s.lnk.sentCnt ≤ n.toNat) := hn
      exact c.nakRound (s.count .naksRcvd) _ (show s.lnk.ackPt ≤ _ by omega) (show _ < s.lnk.sentCnt by omega) ha h'
  · exact c.notCurrent s _ h

theorem receiveCommit (s : State) (epoch : Word16) (h : P s) : P (s.receiveCommit epoch) := by
  unfold State.receiveCommit
  split
  · split
    · exact c.commit s epoch (active_of_current ‹_›) ‹_› h
    · exact c.breakEpoch _ _ h
  · exact c.notCurrent s _ h

theorem receiveReject (s : State) (epoch : Word16) (reason : Byte) (h : P s) : P (s.receiveReject epoch reason) := by
  unfold State.receiveReject
  split
  · exact c.breakEpoch _ _ (c.rejected s _ _ h)
  · exact c.notCurrent s _ h

theorem receivePause (s : State) (q : Word16) (h : P s) : P (s.receivePause q) := c.stats _ _ (c.setPause s _ h)

omit c in
theorem inbound (s : State) (f : State → State) (h : P s) (hf : P (f s)) : P (s.inbound f) := by
  unfold State.inbound
  split
  · exact hf
  · exact h

theorem receiveRaw (s : State) (f : RawFrame) (h : P s) : P (s.receiveRaw f) := by
  unfold State.receiveRaw
  split
  · exact c.stats _ _ h
  · split
    · exact c.receiveAck _ _ _ h
    · split
      · exact c.receiveNak _ _ _ h
      · split
        · exact c.receivePause _ _ h
        · split
          · exact c.receiveCommit _ _ h
          · exact c.receiveReject _ _ _ h

theorem sampleLine (s : State) (high : Bool) (h : P s) : P (s.sampleLine high) := by
  have h' := c.lineSeenLow s (!high) h
  unfold State.sampleLine
  simp only
  split
  · unfold State.lineRequest
    split
    · exact c.stats _ _ (c.alert _ _ h')
    · split
      · exact c.freeze _ _ _ ‹_› h'
      · split
        · exact c.stats _ _ (c.alert _ _ h')
        · rename_i hn
          rw [not_or, Bool.not_eq_true, Option.isSome_eq_false_iff, Option.isNone_iff_eq_none] at hn
          exact c.lineWaits _ _ hn.2 h'
  · exact h'

/-- Every row keeps the property. -/
theorem exec (i : Instr) (s t : State) (h : P s) (he : Machine.exec i s = .next t) : P t := by
  refine c.toWriteClosed.exec c.rx (fun s o h => c.out s _ h) ?_ i s t h he
  intro i s t hm h he
  have raised : ∀ (s : State) e, P s → P (s.raise e) := fun s e h => c.alert s _ h
  cases i <;> cases hm <;> obtain rfl := Host.Outcome.next.inj he
  case controlledResetFinalStep =>
    split
    · exact c.finalStep s ‹_› h
    · exact h
  case powerOnReset => exact c.powerOn _ _ _ _
  case sportReset => exact c.out _ _ (c.portReset s h)
  case freezeReqEdge => exact c.sampleLine s true h
  case lockGained =>
    split
    · exact h
    · exact c.evaluate _ (raised _ _ (c.linkUp s h))
  case lossOfLock =>
    split
    · exact c.breakEpoch _ _ (c.out _ _ (c.stats _ _ (c.alert _ _ (c.lose s h))))
    · exact h
  case requestArrives r =>
    cases r
    · simp only
      split
      · exact c.stats _ _ (raised _ _ h)
      · exact c.arriveRead s _ ‹_› h
    · simp only
      split
      · exact c.stats _ _ (raised _ _ h)
      · exact c.arriveWrite s _ ‹_› h
  case takeRead => exact c.takeRead s h
  case takeWrite => exact c.takeWrite s h
  case grant =>
    split
    · exact c.send _ (c.grant s ‹_› h)
    · exact h
  case completion ok data =>
    split
    · split
      · exact c.complete s _ _ _ _ ‹_› ‹_› h
      · exact raised _ _ h
    · exact raised _ _ h
  case placeFillFrame =>
    split
    · split
      · exact c.placeFill s _ ‹_› (And.left ‹_›) (And.right ‹_›) h
      · exact h
    · exact h
  case buildEnd =>
    split
    · split
      · exact c.placeEnd s ‹_› (And.left ‹_›) (And.right ‹_›) h
      · exact h
    · exact h
  case startTransmission =>
    split
    · exact c.startFrame s _ ‹_› h
    · exact h
  case startAbandon =>
    split
    · split
      · exact c.out _ _ (c.lineBusy s none (some (.abandon _ _)) h)
      · exact h
    · exact h
  case transmissionEnd =>
    split
    · exact c.out _ _ (c.lineBusy s s.lnk.abandon none h)
    · exact h
  case ack => exact inbound s _ h (c.receiveAck s _ _ h)
  case nak => exact inbound s _ h (c.receiveNak s _ _ h)
  case pause => exact inbound s _ h (c.receivePause s _ h)
  case commit => exact inbound s _ h (c.receiveCommit s _ h)
  case reject => exact inbound s _ h (c.receiveReject s _ _ h)
  case inboundFrameDiscarded f => exact inbound s _ h (c.receiveRaw s f h)
  case ackTimerExpiry =>
    split
    · exact c.ackExpire s h
    · exact h
  case pauseTimerExpiry =>
    split
    · exact c.setPause s 0 h
    · exact h
  case continuousPauseExpiry =>
    split
    · exact c.breakEpoch _ _ h
    · exact h
  case stallTimerExpiry =>
    split
    · exact c.stallExpire s h
    · exact h
  case epochTimerExpiry =>
    split
    · exact c.breakEpoch _ _ h
    · exact h
  case frameTimerExpiry =>
    split
    · exact c.rx _ _ h
    · exact h
  case tickDividerApplied => exact c.tickLen s h
  case tick high => exact c.sampleLine _ high (c.ticks s h)

/-- Every step keeps the property. -/
theorem step (s t : State) (h : P s) (he : Machine.step s = .next t) : P t := by
  unfold Machine.step at he
  split at he
  · cases he
    exact h
  · exact c.exec _ _ t (c.pending s _ h) he

end StepClosed

end Sys2Proof.Machine
end

