-- ==== Sys2Proof/Tests/Slice0.lean ====
section
/-! SUPPORT. Tests: an ill-formed term for each check of WellFormed, the manual's own numbers, one or two single steps for the
rows, and for every statement with hypotheses states and operands that meet them, clause by clause. -/

namespace Sys2Proof.Tests

-- One test after another: side by side, each claims a stack of its own and the gate's memory limit is met.
set_option Elab.async false

open Machine

/-! ### Lines, states -/

/-- A full preamble and a whole frame. -/
def line : Line := { ones := 16, cut := none }

/-- A good WRITE frame. -/
def good : WriteLine := { line := line, turn := 2, badParity := false }

/-- A WRITE frame with the wrong parity bit. -/
def bad : WriteLine := { good with badParity := true }

/-- A preamble one bit short. -/
def short : Line := { ones := 15, cut := none }

/-- A frame that MCK leaves after 10 bits. -/
def cut : Line := { ones := 16, cut := some 10 }

/-- A good WRITE frame on another line. -/
def on (l : Line) : WriteLine := { good with line := l }

/-- The part after reset with the link UP. -/
def up : State := { State.reset with lnk := { Lnk.reset with up := true } }

/-- A record of an epoch. -/
def record (st : EpochState) : EpochRecord :=
  { number := 1, source := .mgmt, kindRequested := .full, kindPerformed := .full, state := st, cause := none, granules := 0,
    framesSent := 0, framesResent := 0, duration := 0, digest := none }

/-- The part in IDLE with an epoch active in SENDING. -/
def sending : State :=
  { up with frz := { Frz.reset with history := [record .sending] }, lnk := { up.lnk with curEpoch := 1, ctl := .tail } }

/-- The part FROZEN with an epoch in CAPTURING, OPEN in its slot and one granule to read. -/
def frozen : State :=
  { up with
    frz := { Frz.reset with st := .frozen, history := [record .capturing], nextEpoch := 2 }
    cap := { Cap.reset with st := .copying, plan := .opening :: (granuleFrames 0 0 ++ [.closing]), pos := 1, remain := 1 }
    lnk := { up.lnk with
      ctl := .sending, curEpoch := 1
      slots := [{ st := .ready, seq := 0, frame := .opening 1 .full [] 1, issued := 0 }] } }

/-- An IMAGE window of one granule at address 0, then an empty table. -/
def oneWindow : Win :=
  { Win.reset with
    table := { kind := .image, base := 0, size := 1, fill := 0, mapOffset := 0 } ::
      List.replicate 7 { Window.off with mapOffset := 1 } }

/-- A block of one byte value. -/
def block (b : Byte) : Block := Vector.replicate 32 b

/-- A whole-block WRITE. -/
def write (marker : Bool) : WriteReq :=
  { initiator := 1, tag := 2, addr := 64, mask := BitVec.allOnes 32, marker := marker, data := List.replicate 32 7 }

/-- A READ of 8 bytes. -/
def read : ReadReq := { initiator := 1, tag := 3, addr := 72, len := 8 }

/-- A journal entry of the block of those requests. -/
def entry (st : EntryState) : JEntry :=
  { block := 64, window := 0, epoch := 1, mask := BitVec.allOnes 32, data := block 5, st := st, redirty := false, retry := 0 }

/-! ### WellFormed refuses -/

theorem test_wf_short_preamble :
    ([.freeze (on short), .abort (on short), .invalidateBaseline (on short), .windowWrite (on short),
      .windowRead (on short), .historyRead (on short), .clearCounters (on short), .reset (on short),
      .invalidCommandCode (on short) 9, .readNext short 0, .invalidOpcodeFrame (on short) 0 0,
      .frameForOtherDevice (on short) 1 3 0 0, .startFieldMismatch 15 0] : List Instr).all (fun i => !i.wf) = true := by
  decide

theorem test_wf_cut_frame :
    ([.alertStatTestWrite (on cut) 0, .alertEnWrite (on cut) 0, .alertDisWrite (on cut) 0, .drnFaultInfoWrite (on cut) 0,
      .jrnHwmWrite (on cut) 0, .jrnLwmWrite (on cut) 0, .jrnCfgWrite (on cut) 0, .stallLimitWrite (on cut) 0,
      .epochLimitWrite (on cut) 0, .frzCfgWrite (on cut) 0, .lnkAckTmoWrite (on cut) 0, .lnkRetryLimWrite (on cut) 0,
      .lnkPauseLimWrite (on cut) 0, .arbCfgWrite (on cut) 0, .tickDivWrite (on cut) 0, .jrnPeakRead cut,
      .alertStatRead cut] : List Instr).all (fun i => !i.wf) = true := by
  decide

theorem test_wf_cut_access :
    ([.readPairLow cut 0x010, .readPairHigh cut 0x011, .writePairLow (on cut) 0x010 0, .counterRead cut 0x088,
      .writeRegister (on cut) 0x001 0, .writePairHigh (on cut) 0x011 0] : List Instr).all (fun i => !i.wf) = true := by
  decide

theorem test_wf_wrong_register :
    ([.readPairLow line 0x011, .readPairHigh line 0x010, .writePairLow good 0x013 0, .counterRead line 0x001,
      .writeRegister good 0x010 0, .writeRegister good 0x000 0, .writePairHigh good 0x088 0] : List Instr).all
      (fun i => !i.wf) = true := by
  decide

theorem test_wf_known_code :
    ([.invalidCommandCode good 1, .invalidCommandCode good 8] : List Instr).all (fun i => !i.wf) = true := by
  decide

/-- A PAUSE with a quantum of 0, as received whole. -/
def pauseFrame : RawFrame := { kind := 0x13, length := 2, body := [0, 0], check := crc32 [0x13, 2, 0, 0, 0] }

theorem test_wf_frame_that_passes : (Instr.inboundFrameDiscarded pauseFrame).wf = false := by decide +kernel

theorem test_wf_accepts :
    ([.freeze good, .abort bad, .invalidCommandCode good 0, .invalidCommandCode good 9, .readPairLow line 0x010,
      .readPairHigh line 0x087, .writePairLow good 0x050 1, .counterRead line 0x099, .writeRegister good 0x1FF 0,
      .writePairHigh good 0x051 0, .startFieldMismatch 16 2, .inboundFrameDiscarded { pauseFrame with check := 0 }] :
      List Instr).all Instr.wf = true := by
  decide +kernel

/-! ### The manual's own numbers -/

theorem test_crc_check_value : crc32 [0x31, 0x32, 0x33, 0x34, 0x35, 0x36, 0x37, 0x38, 0x39] = 0xCBF43926 := by decide +kernel

theorem test_decode_spells_nothing : decodeTableWord 0 0 = none ∧ decodeTableWord 32 7 = none := by decide

/-! ### What a command does, as a Boolean -/

/-- The command answers a next state that `p` holds of. -/
def gives (i : Instr) (s : State) (p : State → Bool) : Bool :=
  match exec i s with
  | .next t => p t
  | _ => false

/-- The part with CMD_ARG set. -/
def arg (v : Word16) (s : State) : State := { s with mgmt := { s.mgmt with arg := v } }

/-- The part with a request in the pending-freeze slot. -/
def waiting (src : Source) (s : State) : State := { s with frz := { s.frz with slot := some ⟨src, .delta⟩ } }

/-- The part with writes in the write lane. -/
def lane (ws : List WriteReq) (s : State) : State := { s with sp := { s.sp with wlane := ws, wcred := 8 - ws.length } }

/-- The part in a stall of the write lane, the claim held. -/
def stalled (k : StallKind) (s : State) : State :=
  { lane [write true] s with
    frz := { s.frz with stall := some k }
    sp := { (lane [write true] s).sp with
      writes := [{ id := 0, initiator := 1, tag := 2, silent := false, claimed := true }] } }

/-! ### The queue of commands, and resets -/

theorem test_step_front :
    step { up with pending := [.tick false, .grant] } = exec (.tick false) { up with pending := [.grant] } ∧
      step up = .next up := ⟨rfl, rfl⟩

/-- A controlled reset with nothing left to wait for. -/
def resetting : State :=
  { up with resetting := true, sp := { Sp.reset with rcred := 0, wcred := 0, rheld := 8, wheld := 8 } }

theorem test_witness_final_step :
    (resetting.resetting = true ∧ resetting.frz.st = .idle ∧ resetting.sp.rlane = [] ∧ resetting.sp.wlane = [] ∧
      resetting.sp.reads = [] ∧ resetting.sp.writes = [] ∧ resetting.sp.live = [] ∧ resetting.mp.queue = []) ∧
    ¬(up.resetting = true) ∧ resetting.resetReady = true ∧
    gives .controlledResetFinalStep resetting
      (fun t => !t.resetting && decide (t.out.length = 16) && t.lnk.up && t.frz.lineSeenLow) = true ∧
    gives .controlledResetFinalStep { resetting with frz := { resetting.frz with lineSeenLow := false } }
      (fun t => !t.frz.lineSeenLow) = true := by
  decide +kernel

theorem test_power_on :
    gives (.powerOnReset 5 true) { sending with lnk := { sending.lnk with tx := some (.abandon 1 .abort) } }
      (fun t => decide (t.mgmt.straps = 5 ∧ t.lnk.up = false ∧ t.out = [.frameCut, .memReset])) = true := by
  decide +kernel

theorem test_sport_reset :
    gives .sportReset (stalled .marker (waiting .marker sending))
      (fun t => decide (t.frz.slot = none ∧ t.sp.writes = [] ∧ t.sp.wcred = 8 ∧ t.out = [.resetAck 8 8])) = true := by
  decide +kernel

/-! ### Invariants -/

theorem test_frozen_table : frozen.tableKept := by
  refine ⟨rfl, fun i w h => ?_⟩
  have hi : i < 8 := by simpa [frozen, up, State.reset, Win.reset] using (List.getElem?_eq_some_iff.1 h).1
  interval_cases i <;> (simp [frozen, up, State.reset, Win.reset] at h; subst h; decide)

theorem test_frozen_phases : frozen.PhasesKept := by constructor <;> decide

theorem test_frozen_window : frozen.WindowKept := by constructor <;> decide

theorem test_frozen_stall : frozen.StallKept := by
  constructor <;> first | decide | simp [frozen, up, State.reset, Frz.reset, Mgmt.reset]

theorem test_frozen_refs : frozen.RefsKept := by constructor <;> decide

theorem test_frozen_capacities : frozen.CapacityKept := by constructor <;> decide

/-- The part with two IMAGE windows, an OFF one between them, and marks in both. -/
def marked : State :=
  { up with
    win := { Win.reset with
      table := { kind := .image, base := 0, size := 2, fill := 0, mapOffset := 0 } :: { Window.off with mapOffset := 2 } ::
        { kind := .image, base := 0x10000, size := 3, fill := 0, mapOffset := 2 } ::
        List.replicate 5 { Window.off with mapOffset := 5 } }
    maps := { coll := [1, 2, 4], img := [] } }

theorem test_marked_table : marked.tableKept := by
  refine ⟨rfl, fun i w h => ?_⟩
  have hi : i < 8 := by simpa [marked] using (List.getElem?_eq_some_iff.1 h).1
  interval_cases i <;> (simp [marked] at h; subst h; decide)

theorem test_witness_maps :
    frozen.mapsKept ∧ marked.mapsKept ∧ granuleCount .delta marked.maps.coll marked.win.table = 3 ∧
      (framePlan .delta [4] marked.win.table).length = 18 ∧ (framePlan .full [] marked.win.table).length = 82 := by
  decide +kernel

theorem test_frozen_windows : frozen.windowsKept := by refine ⟨?_, ?_, ?_⟩ <;> decide +kernel

theorem test_marked_windows : marked.windowsKept := by refine ⟨?_, ?_, ?_⟩ <;> decide +kernel

/-- R65, R66: at the bounds of two IMAGE windows. -/
theorem test_witness_windows :
    imageWindow marked.win.table 0x1FFF = some (0, { kind := .image, base := 0, size := 2, fill := 0, mapOffset := 0 }) ∧
      imageWindow marked.win.table 0x2000 = none ∧ imageWindow marked.win.table 0xFFFF = none ∧
      imageWindow marked.win.table 0x12FFF =
        some (2, { kind := .image, base := 0x10000, size := 3, fill := 0, mapOffset := 2 }) := by
  decide +kernel

theorem test_witness_invariants :
    frozen.creditsKept ∧ frozen.memCreditsKept ∧ frozen.configKept ∧ frozen.journalKept ∧ frozen.numbersKept ∧
      step { frozen with pending := [.startTransmission] } = exec .startTransmission frozen ∧
      gives .startTransmission frozen (fun t => decide (t.lnk.sentCnt = 1)) = true := by
  refine ⟨by decide, by decide, by decide, by decide, by decide, rfl, by decide +kernel⟩

/-! ### Commands written to CMD -/

theorem test_witness_freeze :
    good.good ∧ up.hunting ∧ up.mgmt.busy = false ∧ ((arg 3 up).mgmt.arg ≠ 1 ∧ (arg 3 up).mgmt.arg ≠ 2) ∧
    (up.frz.st = .idle ∧ up.frz.active = false ∧ up.lnk.up = true) ∧ (arg 1 frozen).frz.st = .frozen ∧
    (¬((waiting .line State.reset).lnk.up = true) ∧ (waiting .line State.reset).frz.slot.isSome = true) ∧
    (¬(sending.frz.active = false) ∧ sending.frz.st ≠ .frozen ∧ sending.frz.slot = none) := by
  decide

theorem test_freeze_takes_effect :
    gives (.freeze good) (arg 2 { up with win := oneWindow })
      (fun t => decide (t.frz.st = .frozen ∧ t.frz.nextEpoch = 2 ∧ t.cap.remain = 1 ∧ t.mgmt.result = .ok)) = true := by
  decide +kernel

theorem test_freeze_waits :
    gives (.freeze good) (arg 2 sending) (fun t => decide (t.mgmt.busy = true ∧ t.frz.slot = some ⟨.mgmt, .delta⟩)) = true := by
  decide +kernel

/-- A FREEZE waiting in the slot. -/
def freezeWaits : State :=
  { waiting .mgmt sending with mgmt := { Mgmt.reset with busy := true, code := 1 } }

theorem test_witness_busy :
    writeRow (.windowRead good) = some (good, 0, 5) ∧ freezeWaits.mgmt.busy = true ∧
      ¬(freezeWaits.mgmt.code = 1 ∧ ((5 : Word16) = 2 ∨ (5 : Word16) = 8)) ∧
      writeRow (.abort good) = some (good, 0, 2) ∧
      gives (.windowRead good) freezeWaits (fun t => t.mgmt.rejected && decide (t.frz.slot ≠ none)) = true := by
  decide +kernel

theorem test_witness_abort :
    (sending.mgmt.busy = false ∧ sending.hunting) ∧ (freezeWaits.mgmt.busy = true ∧ freezeWaits.mgmt.code = 1) ∧
      gives (.abort good) sending (fun t => decide (t.frz.active = false ∧ t.lnk.prevEpoch = 1)) = true ∧
      gives (.reset good) freezeWaits
        (fun t => t.resetting && decide (t.frz.slot = none ∧ t.mgmt.code = 8) && t.mgmt.busy) = true := by
  decide +kernel

theorem test_witness_history :
    3 < (arg 4 sending).mgmt.arg.toNat ∧ (arg 0 sending).frz.history[(arg 0 sending).mgmt.arg.toNat]? = some (record .sending) ∧
      ((arg 3 sending).mgmt.arg.toNat ≤ 3 ∧ (arg 3 sending).frz.history[(arg 3 sending).mgmt.arg.toNat]? = none) ∧
      ((0 : Word16).toNat = 0 ∧ 8 < (9 : Word16).toNat) ∧
      gives (.historyRead good) sending (fun t => decide (t.mgmt.hist.info = 149)) = true ∧
      gives (.invalidCommandCode good 9) up (fun t => decide (t.mgmt.code = 15 ∧ t.mgmt.result = .refusedArgument)) = true := by
  decide +kernel

theorem test_invalidate_baseline :
    gives (.invalidateBaseline good) { up with frz := { up.frz with baseline := true } } (fun t => !t.frz.baseline) = true := by
  decide +kernel

/-- An IMAGE window of two granules at 4096 staged. -/
def staged : Win := { Win.reset with stgBase := 16, stgSize := 2, stgKind := 1 }

theorem test_witness_window_write :
    7 < (arg 8 up).mgmt.arg.toNat ∧ ((arg 7 up).mgmt.arg.toNat ≤ 7 ∧ sending.frz.active = true ∧ frozen.frz.st ≠ .idle) ∧
      ({ Win.reset with stgKind := 3 } : Win).replaced 7 = none ∧ (staged.replaced 7).isSome = true ∧
      Win.reset.table.length = 8 ∧
      gives (.windowWrite good) (arg 7 { up with win := staged })
        (fun t => decide (t.win.table[7]? = some ⟨.image, 4096, 2, 0, 0⟩ ∧ t.mgmt.result = .ok)) = true := by
  decide +kernel

theorem test_witness_window_read :
    7 < (arg 8 up).mgmt.arg.toNat ∧ ((arg 7 up).mgmt.arg.toNat ≤ 7 ∧ up.win.table[7]? = some Window.off) ∧
      gives (.windowRead good) { up with win := oneWindow } (fun t => decide (t.win.stgSize = 1 ∧ t.win.stgKind = 1)) =
        true := by
  decide +kernel

theorem test_witness_clear_counters :
    good.good ∧ up.hunting ∧ up.mgmt.busy = false ∧
      gives (.clearCounters good) { up with stats := { Stats.reset with naksRcvd := 9, jrnPeak := 7 } }
        (fun t => decide (t.stats = Stats.reset)) = true := by
  decide +kernel

/-! ### The freeze controller -/

theorem test_witness_freeze_points :
    (({ up with win := oneWindow } : State).beginEpoch .mgmt .full).cap.plan.any PlanFrame.isData = true ∧
      ((up.beginEpoch .mgmt .full).cap.plan.any PlanFrame.isData = false ∧ up.win.table.length = 8 ∧ up.jrn.entries = [] ∧
        up.frz.stall ≠ some .exhaustion) ∧
      (({ up with frz := { up.frz with nextEpoch := 65535 } } : State).beginEpoch .line .delta).frz.nextEpoch = 1 := by
  decide +kernel

theorem test_witness_freeze_req :
    (({ up with frz := { up.frz with lineSeenLow := false } } : State).frz.lineSeenLow = false) ∧
      up.frz.lineSeenLow = true ∧ resetting.frz.lineSeenLow = true ∧ up.resetting = false ∧
      gives .freezeReqEdge up (fun t => decide (t.frz.history.length = 1) && !t.frz.lineSeenLow) = true ∧
      gives .freezeReqEdge sending (fun t => decide (t.frz.slot = some ⟨.line, .delta⟩)) = true ∧
      gives .freezeReqEdge (waiting .line sending) (fun t => decide (t.stats.freezesRefused = 1)) = true := by
  decide +kernel

/-- FILL windows around an IMAGE window. -/
def fillFirst : State :=
  { up with
    win := { Win.reset with
      table := { kind := .fill, base := 0, size := 2, fill := 9, mapOffset := 0 } ::
        { kind := .image, base := 0x10000, size := 1, fill := 0, mapOffset := 2 } ::
        { kind := .fill, base := 0x20000, size := 4, fill := 8, mapOffset := 3 } ::
        List.replicate 5 { Window.off with mapOffset := 7 } } }

theorem test_leading_fill_frames :
    (fillFirst.beginEpoch .mgmt .full).lnk.slots.map Slot.frame =
        [.opening 1 .full (descriptorsFrom 0 fillFirst.win.table) 1, .fill 1 1 0 9 2] ∧
      (fillFirst.beginEpoch .mgmt .full).cap.pos = 2 ∧ (fillFirst.beginEpoch .mgmt .full).cap.fillBuilt = 1 := by
  decide +kernel

theorem test_witness_evaluation :
    up.frz.slot = none ∧ ¬(sending.frz.active = false) ∧
      (up.frz.st = .idle ∧ up.frz.active = false ∧ up.lnk.up = true) ∧
      (waiting .mgmt up).frz.slot = some ⟨.mgmt, .delta⟩ ∧ (waiting .line up).frz.slot = some ⟨.line, .delta⟩ ∧
      (stalled .marker (waiting .marker up)).sp.wlane = write true :: [] ∧
      (stalled .marker (waiting .marker up)).evaluate.frz.stall = none := by
  decide +kernel

theorem test_witness_breaks :
    up.frz.active = false ∧ frozen.frz.history = record .capturing :: [] ∧ (record .capturing).state.active = true ∧
      (record .sending).state.active = true ∧
      ((stalled .exhaustion frozen).frz.stall = some .exhaustion ∧ (stalled .exhaustion frozen).sp.wlane = write true :: []) ∧
      (frozen.breakNow .abort).frz.st = .idle ∧ ((stalled .exhaustion frozen).breakNow .abort).sp.wlane = [] := by
  decide +kernel

theorem test_witness_capture_complete :
    frozen.frz.history = record .capturing :: [] ∧ frozen.frz.stall ≠ some .exhaustion ∧
      (stalled .exhaustion frozen).captureComplete.frz.stall = none := by
  decide +kernel

/-- A stall whose timer stands at its limit. -/
def due (k : StallKind) (s : State) : State :=
  { stalled k s with frz := { (stalled k s).frz with stallTimer := 1000 } }

/-- An epoch in CAPTURING whose timer stands at its limit of 1 ms. -/
def epochDue : State := { frozen with frz := { frozen.frz with epochTimer := 1000, epochLimit := 1 } }

theorem test_witness_timers :
    (due .marker (waiting .marker sending)).frz.stallDue = true ∧ (due .exhaustion frozen).frz.stallDue = true ∧
      (stalled .marker (waiting .marker sending)).frz.stallDue = false ∧ epochDue.frz.epochDue = true ∧
      frozen.frz.epochDue = false ∧
      gives .stallTimerExpiry (due .marker (waiting .marker sending))
        (fun t => decide (t.frz.stall = none ∧ t.stats.markersRefused = 1 ∧ t.sp.wlane = [])) = true ∧
      gives .epochTimerExpiry epochDue (fun t => decide (t.frz.active = false)) = true := by
  decide +kernel

theorem test_witness_limit_writes :
    ((0 : Word16).toNat % 4 = 0 ∧ (3 : Word16).toNat % 4 = 3 ∧ (1 : Word16).toNat / 4 % 4 = 0 ∧
      (13 : Word16).toNat / 4 % 4 = 3) ∧
      ((9 : Word16).toNat % 4 = 1 ∧ (9 : Word16).toNat / 4 % 4 = 2) ∧
      gives (.stallLimitWrite good 1000) (due .exhaustion frozen) (fun t => decide (t.frz.active = false)) = true ∧
      gives (.epochLimitWrite good 0) epochDue (fun t => decide (t.frz.active = true)) = true ∧
      gives (.frzCfgWrite good 9) up (fun t => decide (t.frz.lineKind = .full ∧ t.frz.markerKind = .delta)) = true := by
  decide +kernel

/-! ### The system port -/

theorem test_witness_arrivals :
    resetting.sp.rcred = 0 ∧ up.sp.rcred ≠ 0 ∧ resetting.sp.wcred = 0 ∧ up.sp.wcred ≠ 0 ∧
      gives (.requestArrives (.read read)) up (fun t => decide (t.sp.rlane = [read] ∧ t.sp.rcred = 7)) = true ∧
      gives (.requestArrives (.write (write false))) resetting (fun t => decide (t.stats.creditOverruns = 1)) = true := by
  decide +kernel

/-- The part with a READ at the head of its lane. -/
def reading (r : ReadReq) (s : State) : State := { s with sp := { s.sp with rlane := [r], rcred := 7 } }

/-- The FROZEN part with the block of the requests in its journal. -/
def holding : State := { frozen with win := oneWindow, jrn := { Jrn.reset with entries := [entry .held] } }

/-- The part with every outstanding read record taken. -/
def fullReads : State :=
  { up with sp := { Sp.reset with
      reads := (List.range 32).map fun n =>
        { id := n, initiator := 9, tag := BitVec.ofNat 6 n, addr := 0, len := 1, silent := false, capture := none } } }

theorem test_witness_take_read :
    (read.formatError = false ∧ ({ read with len := 0 } : ReadReq).formatError = true ∧
        ({ read with len := 33 } : ReadReq).formatError = true ∧ ({ read with len := 25 } : ReadReq).formatError = true ∧
        ({ read with len := 24 } : ReadReq).formatError = false) ∧
      (reading { read with initiator := 9 } fullReads).sp.pairHeld 9 3 = true ∧
      ((reading read holding).sp.pairHeld 1 3 = false ∧ holding.captureMask read = read.range) ∧
      (up.captureMask read ≠ read.range ∧ ¬(fullReads.sp.reads.length < 32) ∧ up.sp.reads.length < 32 ∧
        up.sp.live.length + up.sp.writes.countP WriteRec.claimed < 16) := by
  decide +kernel

/-- R121, R126, R136: a claimed record holds its pair, a silent one does not. -/
theorem test_pair_held :
    (stalled .marker sending).sp.pairHeld 1 2 = true ∧ (stalled .marker sending).sp.pairHeld 1 3 = false ∧
      fullReads.sp.pairHeld 9 31 = true ∧ (fullReads.sp.portReset false).pairHeld 9 31 = false := by
  decide +kernel

theorem test_take_read :
    gives .takeRead (reading read holding)
        (fun t => decide (t.out = [.readDone 1 3 .ok (List.replicate 8 5), .creditReturn .read])) = true ∧
      gives .takeRead (reading read up)
        (fun t => decide (t.sp.live = [.read 64 0] ∧ t.sp.reads.length = 1 ∧ t.out = [.creditReturn .read])) = true := by
  decide +kernel

/-- The part with every outstanding write record taken. -/
def fullWrites : State :=
  { up with sp := { Sp.reset with
      writes := (List.range 16).map fun n =>
        { id := n, initiator := 9, tag := BitVec.ofNat 6 n, silent := false, claimed := false } } }

theorem test_lane_stall : (lane [write false] holding).StallKept ∧ (lane [write false] up).StallKept := by
  constructor <;> constructor <;>
    first | decide | simp [lane, holding, frozen, up, State.reset, Frz.reset, Mgmt.reset]

theorem test_witness_take_write :
    ((write false).formatError = false ∧ ({ write false with mask := 0 } : WriteReq).formatError = true ∧
        ({ write false with addr := 65 } : WriteReq).formatError = true ∧
        ({ write false with data := List.replicate 31 7 } : WriteReq).formatError = true) ∧
      ((lane [write false] holding).sp.wlane = write false :: [] ∧ holding.frz.stall = none ∧
        (stalled .marker sending).frz.stall ≠ none) ∧
      (lane [{ write false with initiator := 9 }] fullWrites).sp.pairHeld 9 2 = true ∧
      (imageWindow holding.win.table 64 = some (0, ⟨.image, 0, 1, 0, 0⟩) ∧ holding.jrn.find 64 = some (entry .held)) ∧
      (({ frozen with win := oneWindow } : State).jrn.find 64 = none ∧ frozen.frz.st = .frozen ∧
        frozen.jrn.entries.length < 2048) ∧
      (imageWindow up.win.table 64 = none ∧ ¬(fullWrites.sp.writes.length < 16) ∧ up.sp.writes.length < 16) := by
  decide +kernel

theorem test_take_write :
    gives .takeWrite (lane [write false] holding)
        (fun t => decide (t.jrn.entries.map JEntry.data = [block 7] ∧ t.maps.coll = [0] ∧ t.stats.jrnMerges = 1)) = true ∧
      gives .takeWrite (lane [write false] up)
        (fun t => decide (t.sp.live = [.write 64 (BitVec.allOnes 32) (block 7) 0] ∧ t.out = [.creditReturn .write])) =
        true := by
  decide +kernel

theorem test_witness_marker_write :
    (write true).marker = true ∧ (write true).formatError = false ∧ up.sp.pairHeld 1 2 = false ∧
      ¬((lane [write true] fullWrites).sp.writes.length < 16) ∧ resetting.resetting = true ∧
      (up.frz.st = .idle ∧ up.frz.active = false ∧ up.lnk.up = true) ∧ (lane [write true] frozen).frz.st = .frozen ∧
      (¬(sending.frz.active = false) ∧ (waiting .line sending).frz.slot.isSome = true ∧ sending.frz.slot = none) ∧
      gives .takeWrite (lane [write true] sending)
        (fun t => decide (t.frz.stall = some .marker ∧ t.frz.slot = some ⟨.marker, .delta⟩ ∧ t.sp.claims = 1)) = true := by
  decide +kernel

/-- The journal full of entries for other blocks. -/
def full (p : Policy) : State :=
  { frozen with
    win := oneWindow
    jrn := { Jrn.reset with policy := p, entries := List.replicate 2048 { entry .held with block := 96 } } }

theorem test_witness_exhaustion :
    (imageWindow (full .hold).win.table 64 = some (0, ⟨.image, 0, 1, 0, 0⟩) ∧ (full .hold).jrn.find 64 = none ∧
      (full .hold).frz.st = .frozen ∧ 2048 ≤ (full .hold).jrn.entries.length) ∧
    ((full .hold).jrn.policy = .hold ∧ (full .break_).jrn.policy = .break_ ∧ (full .hold).sp.writes.length < 16) ∧
    (State.plainWrite (lane [write false] (full .hold)) (write false)).frz.stall = some .exhaustion ∧
    (State.plainWrite (lane [write false] (full .break_)) (write false)).frz.st = .draining := by
  decide +kernel

theorem test_witness_policy_write :
    ((stalled .exhaustion frozen).jrn.policy = .hold ∧ (1 : Word16).getLsbD 0 = true ∧
      (stalled .exhaustion frozen).frz.stall = some .exhaustion) ∧
    gives (.jrnCfgWrite good 1) (stalled .exhaustion frozen)
      (fun t => decide (t.frz.active = false ∧ t.jrn.policy = .break_ ∧ t.frz.stall = none)) = true := by
  decide +kernel

theorem test_witness_stalled_takes :
    ((stalled .marker (waiting .marker sending)).sp.wlane = write true :: [] ∧
      (stalled .marker (waiting .marker sending)).sp.writes =
        [] ++ { id := 0, initiator := 1, tag := 2, silent := false, claimed := true } :: []) ∧
    (imageWindow holding.win.table 64 = some (0, ⟨.image, 0, 1, 0, 0⟩) ∧ holding.jrn.find 64 = some (entry .held)) ∧
    (imageWindow sending.win.table 64 = none ∧ up.sp.writes = []) ∧
    ((stalled .marker sending).takeStraight (write true)).sp.writes =
      [{ id := 0, initiator := 1, tag := 2, silent := false, claimed := false }] ∧
    ((stalled .marker { holding with frz := { holding.frz with st := .draining } }).takePlain (write true)).sp.writes = [] := by
  decide +kernel

theorem test_witness_bytes :
    (write false).data.length = (List.range 32).countP (write false).mask.getLsbD ∧ (write false).mask.getLsbD 31 = true ∧
      ({ read with len := 24 } : ReadReq).addr.toNat % 32 + 24 = 32 ∧ (holding.captureMask read).getLsbD 15 = true ∧
      (holding.captureMask read).getLsbD 16 = false := by
  decide +kernel

/-! ### The memory port -/

/-- A READ waits in the live queue. -/
def liveWork : State :=
  { up with sp := { Sp.reset with
      live := [.read 64 0]
      reads := [{ id := 0, initiator := 1, tag := 3, addr := 72, len := 8, silent := false, capture := none }] } }

/-- The drain engine has an entry to write, and the arbiter stands at DRAIN. -/
def drainWork : State :=
  { up with
    frz := { Frz.reset with st := .draining, history := [record .committed] }
    jrn := { Jrn.reset with entries := [entry .pending] }
    mp := { Mp.reset with pos := .drain } }

/-- The arbiter at COPIER during capture. -/
def copierWork : State := { frozen with win := oneWindow, mp := { Mp.reset with pos := .copier } }

/-- A FILLING slot with one read issued. -/
def fillingSlot : Slot := { st := .filling, seq := 1, frame := .data 1 1 0 0 0 [], issued := 1 }

/-- The same with that slot in the buffer. -/
def fillingWork : State :=
  { copierWork with lnk := { copierWork.lnk with slots := copierWork.lnk.slots ++ [fillingSlot] } }

theorem test_witness_grant :
    up.grantPossible = false ∧
      (liveWork.mp.queue.length < 32 ∧ liveWork.hasWork liveWork.mp.pos = true ∧
        liveWork.mp.grants < liveWork.mp.cur.of liveWork.mp.pos ∧ liveWork.sp.live = .read 64 0 :: []) ∧
      (drainWork.hasWork drainWork.mp.pos = true ∧ drainWork.jrn.oldestEligible drainWork.sp.live = some (entry .pending)) ∧
      (copierWork.hasWork copierWork.mp.pos = true ∧ copierWork.lnk.slots.find? Slot.unissued = none ∧
        copierWork.cap.plan[copierWork.cap.pos]? = some (.data 0 0 0)) ∧
      fillingWork.lnk.slots.find? Slot.unissued = some fillingSlot ∧ fillingWork.hasWork fillingWork.mp.pos = true ∧
      (drainWork.mp.cur.positive ∧ drainWork.mp.cfg.positive ∧
        ¬(({ drainWork with mp := Mp.reset } : State).hasWork .live = true)) := by
  decide +kernel

theorem test_has_work :
    (({ drainWork with sp := liveWork.sp } : State).hasWork .drain = false ∧
      ({ drainWork with jrn := { drainWork.jrn with
          entries := List.replicate 8 { entry .issued with block := 96 } ++ [entry .pending] } } : State).hasWork .drain =
        false ∧
      ({ copierWork with cap := { copierWork.cap with fence := 1 } } : State).hasWork .copier = false) ∧
    (copierWork.win.table[0]? = some { kind := .image, base := 0, size := 1, fill := 0, mapOffset := 0 } ∧
      fillingSlot.frame = .data 1 1 0 0 0 []) ∧
    fillingSlot.nextBlock copierWork.win.table = 32 ∧
    readBlock [{ kind := .image, base := 0x7000, size := 2, fill := 0, mapOffset := 0 }] 0 1 15 7 = 0x8FE0 := by
  decide +kernel

theorem test_grant :
    gives .grant liveWork (fun t => decide (t.sp.live = [] ∧ t.mp.credits = 15 ∧ t.mp.grants = 1 ∧ t.out = [.memRead 64])) =
        true ∧
      gives .grant copierWork (fun t => decide (t.cap.reads = 1 ∧ t.cap.pos = 2 ∧ t.out = [.memRead 0])) = true := by
  decide +kernel

/-- A memory queue with one entry. -/
def queued (a : MemAccess) (issued : Bool) (s : State) : State :=
  { s with mp := { s.mp with queue := [{ access := a, block := 64, issued := issued }], credits := if issued then 15 else 16 } }

theorem test_witness_send :
    (queued .copier false up).mp.queue = [] ++ { access := .copier, block := 64, issued := false } :: [] ∧
      (queued .copier false up).mp.credits ≠ 0 ∧
      ({ queued .copier false up with mp := { (queued .copier false up).mp with credits := 0 } } : State).mp.credits = 0 ∧
      (∀ e ∈ (queued .copier true up).mp.queue, e.issued = true) := by
  decide +kernel

/-- A write of memory in flight for one outstanding write. -/
def liveWriting : State :=
  queued (.liveWrite 3 1 (block 0)) true
    { up with sp := { Sp.reset with writes := [{ id := 3, initiator := 1, tag := 2, silent := false, claimed := false }] } }

theorem test_witness_live_completions :
    up.mp.queue = [] ∧ (queued .copier false up).mp.queue.map MemEntry.issued = [false] ∧
      (queued (.liveRead 0) true liveWork).mp.queue.map MemEntry.issued = [true] ∧
      (liveWork.sp.reads.find? fun q => decide (q.id = 0)).isSome = true ∧
      (liveWriting.sp.writes.find? fun q => decide (q.id = 3)).isSome = true ∧
      gives (.completion true (block 9)) up (fun t => decide (t.alert.status = 0 ∧ t.mp.credits = 16)) = true ∧
      gives (.completion true (block 9)) (queued (.liveRead 0) true liveWork)
        (fun t => decide (t.sp.reads = [] ∧ t.mp.credits = 16 ∧ t.out = [.readDone 1 3 .ok (List.replicate 8 9)])) = true := by
  decide +kernel

/-- A drain write in flight. -/
def draining (redirty : Bool) (retry : Nat) : State :=
  queued (.drain (BitVec.allOnes 32) (block 5)) true
    { drainWork with jrn := { Jrn.reset with entries := [{ entry .issued with redirty := redirty, retry := retry }] } }

theorem test_witness_drain :
    (draining true 0).jrn.find 64 = some { entry .issued with redirty := true } ∧
      ((1 : Nat) < 2 ∧ (draining false 1).jrn.find 64 = some { entry .issued with retry := 1 }) ∧
      (draining false 2).jrn.find 64 = some { entry .issued with retry := 2 } ∧
      gives (.completion true (block 0)) (draining false 0) (fun t => decide (t.jrn.entries = [] ∧ t.frz.st = .idle)) = true ∧
      gives (.completion false (block 0)) (draining false 2)
        (fun t => decide (t.jrn.fault.count = 1 ∧ t.jrn.fault.block = 64 ∧ t.frz.st = .idle)) = true := by
  decide +kernel

/-- A FILLING slot that its next block completes. -/
def lastBlock : Slot := { st := .filling, seq := 1, frame := .data 1 1 0 15 0 (List.replicate 224 0), issued := 8 }

/-- The copier awaits the last block of its only granule. -/
def lastRead : State :=
  queued .copier true
    { frozen with
      cap := { frozen.cap with pos := 17, reads := 1 }
      lnk := { frozen.lnk with slots := frozen.lnk.slots ++ [lastBlock] } }

theorem test_witness_copier :
    (lastRead.cap.stale = 0 ∧ lastRead.lnk.slots = frozen.lnk.slots ++ lastBlock :: [] ∧
      (∀ x ∈ frozen.lnk.slots, x.st ≠ .filling) ∧ lastBlock.st = .filling ∧
      lastBlock.frame = .data 1 1 0 15 0 (List.replicate 224 0)) ∧
    ({ lastRead with cap := { lastRead.cap with stale := 1 } } : State).cap.stale ≠ 0 ∧
    gives (.completion true (block 0)) lastRead
      (fun t => decide (t.cap.st = .closing ∧ t.cap.remain = 0 ∧ t.lnk.ctl = .tail ∧ t.frz.st = .idle)) = true := by
  decide +kernel

/-! ### The image copier -/

/-- The copier CLOSING with only END left, and with a FILL frame ahead of it. -/
def closing (plan : List PlanFrame) : State :=
  { sending with
    win := { Win.reset with table := { Window.off with kind := .fill, size := 2, fill := 9 } :: List.replicate 7 Window.off }
    cap := { Cap.reset with st := .closing, plan := plan, pos := 1 } }

theorem test_witness_fill_and_end :
    ((closing [.opening, .fill 0, .closing]).cap.plan[1]? = some (.fill 0) ∧
      ((closing []).win.table[0]?).isSome = true ∧ (closing []).cap.st ≠ .idle ∧ (closing []).lnk.slots.length < 16) ∧
    (closing [.opening, .closing]).cap.plan[1]? = some .closing ∧ up.cap.st = .idle ∧
    up.cap.plan[up.cap.pos]? ≠ some .closing ∧
    gives .placeFillFrame (closing [.opening, .fill 0, .closing]) (fun t => decide (t.cap.fillBuilt = 1 ∧ t.cap.pos = 2)) =
      true ∧
    gives .buildEnd (closing [.opening, .closing])
      (fun t => decide (t.cap.st = .idle ∧ t.lnk.slots.map Slot.frame = [.closing 1 1 0 0 0])) = true := by
  decide +kernel

/-- A FILL frame behind the last IMAGE window, reached while a DATA frame ahead of it is FILLING (log 32). -/
theorem test_fill_while_copying :
    gives .placeFillFrame
      { fillingWork with
        win := fillFirst.win
        cap := { fillingWork.cap with plan := [.opening, .data 1 0 15, .fill 2, .closing], pos := 2 } }
      (fun t => decide (t.cap.st = .copying ∧ t.cap.pos = 3 ∧ t.cap.fillBuilt = 1 ∧ t.frz.st = .frozen ∧
        (t.lnk.slots.map Slot.frame).getLast? = some (.fill 1 2 2 8 4))) = true := by
  decide +kernel

/-! ### The replication link -/

theorem test_witness_lock :
    up.lnk.up = true ∧ State.reset.lnk.up = false ∧
      gives .lockGained State.reset (fun t => t.lnk.up) = true ∧
      gives .lossOfLock sending (fun t => decide (t.frz.active = false ∧ t.lnk.abandon = none ∧ t.stats.lockLosses = 1)) =
        true := by
  decide +kernel

/-- The link with END, at sequence 1, next to send: every other frame is acknowledged. -/
def endNext : State :=
  { sending with
    cap := { Cap.reset with plan := [.opening, .closing], pos := 2 }
    lnk := { sending.lnk with
      ackPt := 1, sentCnt := 1, txPt := 1, slots := [{ st := .ready, seq := 1, frame := .closing 1 1 0 0 0, issued := 0 }] } }

/-- The link with OPEN sent and acknowledged by nobody. -/
def openSent : State :=
  { sending with
    cap := { Cap.reset with st := .closing, plan := [.opening, .fill 0, .closing], pos := 1 }
    lnk := { sending.lnk with
      sentCnt := 1, txPt := 1, ackTimer := 200
      slots := [{ st := .sent, seq := 0, frame := .opening 1 .full [] 0, issued := 0 }] } }

/-- An ABANDON waits to be sent. -/
def abandoning : State := { up with lnk := { up.lnk with abandon := some (1, .abort) } }

theorem test_witness_transmission :
    (frozen.lnk.up = true ∧ frozen.lnk.pauseTimer = 0 ∧ frozen.lnk.tx = none ∧ frozen.lnk.abandon = none ∧
      (frozen.lnk.slots.find? fun q => decide (q.seq = frozen.lnk.txPt)).isSome = true ∧
      frozen.frz.history = record .capturing :: []) ∧
    endNext.lnk.startable.isSome = true ∧ up.lnk.startable = none ∧ openSent.lnk.startable = none ∧
    abandoning.lnk.abandon = some (1, .abort) ∧ up.lnk.abandon = none ∧
    gives .startTransmission frozen (fun t => decide (t.lnk.txPt = 1 ∧ t.stats.framesSent = 1 ∧ t.lnk.tx ≠ none)) = true ∧
    gives .startTransmission endNext (fun t => decide (t.lnk.ctl = .awaitCommit)) = true := by
  decide +kernel

theorem test_frame_lengths :
    (Frame.opening 1 .full [] 0).bytes.take 3 = [0x01, 12, 0] ∧
      (Frame.data 0x0201 3 4 5 6 (List.replicate 256 0)).bytes.take 13 = [0x02, 0x0A, 1, 1, 2, 3, 0, 0, 0, 4, 5, 6, 0] ∧
      (List.replicate 256 (0 : Byte)).length = 256 ∧ (Frame.data 1 1 0 0 0 (List.replicate 256 0)).bytes.length = 273 := by
  decide +kernel

theorem test_abandon :
    gives .startAbandon abandoning
        (fun t => decide (t.lnk.abandon = none ∧ t.out = [.frameStart (Frame.abandon 1 .abort).bytes])) = true ∧
      gives .transmissionEnd { up with lnk := { up.lnk with tx := some (.abandon 1 .abort) } }
        (fun t => decide (t.lnk.tx = none ∧ t.out = [.frameEnd])) = true := by
  decide +kernel

theorem test_witness_ack :
    (openSent.lnk.up = true ∧ openSent.frz.active = true ∧ openSent.lnk.ackPt ≤ 0 ∧ 0 < openSent.lnk.sentCnt) ∧
      (endNext.frz.active = true ∧ (0 : Nat) < endNext.lnk.ackPt ∧ endNext.lnk.sentCnt ≤ 5) ∧
      gives (.ack 1 0) openSent (fun t => decide (t.lnk.ackPt = 1 ∧ t.lnk.slots = [] ∧ t.lnk.ackTimer = 0)) = true ∧
      gives (.ack 1 5) openSent (fun t => decide (t.frz.active = false)) = true := by
  decide +kernel

theorem test_witness_nak :
    (openSent.lnk.ackPt ≤ 0 ∧ 0 < openSent.lnk.sentCnt ∧ openSent.lnk.sentCnt ≤ 1) ∧
      ((openSent.lnk.slots.any fun q => decide (q.st = .sent)) = true ∧ openSent.lnk.pauseTimer = 0 ∧
        openSent.lnk.ackTmo.toNat ≤ openSent.lnk.ackTimer) ∧
      ¬(frozen.lnk.ackTmo.toNat ≤ frozen.lnk.ackTimer) ∧
      gives (.nak 1 0) openSent (fun t => decide (t.lnk.retry = 1 ∧ t.lnk.txPt = 0 ∧ t.stats.naksRcvd = 1)) = true ∧
      gives .ackTimerExpiry openSent (fun t => decide (t.lnk.retry = 1 ∧ t.stats.ackTimeouts = 1)) = true := by
  decide +kernel

/-- END has been sent. -/
def awaiting : State := { endNext with lnk := { endNext.lnk with ctl := .awaitCommit, sentCnt := 2, txPt := 2 } }

theorem test_witness_commit :
    (awaiting.lnk.up = true ∧ awaiting.frz.history = record .sending :: [] ∧ awaiting.lnk.ctl = .awaitCommit) ∧
      sending.lnk.ctl ≠ .awaitCommit ∧
      gives (.commit 1) awaiting (fun t => t.frz.baseline && decide (t.frz.active = false ∧ t.lnk.ackPt = 2)) = true ∧
      gives (.commit 1) sending (fun t => decide (t.stats.epochsBroken = 1)) = true := by
  decide +kernel

theorem test_witness_foreign :
    (up.lnk.up = true ∧ ¬(up.frz.active = true) ∧ ¬((2 : Word16) = sending.lnk.curEpoch)) ∧
      (({ pauseFrame with check := 0 } : RawFrame).check ≠ crc32 [0x13, 2, 0, 0, 0]) ∧
      gives (.inboundFrameDiscarded { pauseFrame with check := 0 }) up (fun t => decide (t.stats.badFramesRcvd = 1)) = true ∧
      gives (.reject 2 0) sending (fun t => decide (t.frz.active = false)) = true ∧
      gives (.nak 2 0) up (fun t => decide (t.stats.badFramesRcvd = 1)) = true := by
  decide +kernel

theorem test_pause_and_reject :
    gives (.pause 5) up (fun t => decide (t.lnk.pauseTimer = 5 ∧ t.stats.pausesRcvd = 1)) = true ∧
      gives (.reject 1 1) { sending with frz := { sending.frz with baseline := true } }
        (fun t => decide (t.lnk.lastReject = .noBaseline ∧ t.frz.active = false) && !t.frz.baseline) = true := by
  decide +kernel

/-- A pause that has lasted to its limit of 50 ms. -/
def longPause : State := { sending with lnk := { sending.lnk with pauseTimer := 2, contPause := 50000 } }

theorem test_witness_pauses :
    (up.lnk.pauseTimer ≤ 1 ∧ 1 < longPause.lnk.pauseTimer ∧ longPause.lnk.pauseDue = true ∧ up.lnk.pauseDue = false) ∧
      (openSent.frz.active = true ∧ (200 : Word16).toNat ≤ openSent.lnk.ackTimer) ∧
      gives (.lnkAckTmoWrite good 200) openSent (fun t => decide (t.lnk.retry = 1)) = true ∧
      gives .continuousPauseExpiry longPause (fun t => decide (t.frz.active = false)) = true ∧
      gives .pauseTimerExpiry { up with lnk := { up.lnk with pauseTimer := 1 } } (fun t => decide (t.lnk.pauseTimer = 0)) =
        true := by
  decide +kernel

theorem test_link_writes :
    gives (.lnkRetryLimWrite good 15) up (fun t => decide (t.lnk.retryLim = 15)) = true ∧
      gives (.lnkRetryLimWrite good 16) up (fun t => decide (t.lnk.retryLim = 4)) = true ∧
      gives (.lnkPauseLimWrite good 50) longPause (fun t => decide (t.frz.active = false)) = true ∧
      gives (.lnkAckTmoWrite good 0) up (fun t => decide (t.lnk.ackTmo = 200)) = true := by
  decide +kernel

/-! ### The management link -/

theorem test_witness_parity :
    writeRow (.writeRegister bad 1 7) = some (bad, 1, 7) ∧ bad.wf = true ∧ bad.badParity = true ∧ up.hunting ∧
      gives (.writeRegister bad 1 7) up (fun t => decide (t.mgmt.arg = 0 ∧ t.stats.mgmtFrameErrors = 1)) = true := by
  decide +kernel

theorem test_witness_foreign_device :
    good.wf = true ∧ (1 : BitVec 4) ≠ up.mgmt.straps ∧
      gives (.frameForOtherDevice good 2 1 1 7) up (fun t => decide (t.mgmt.arg = 0 ∧ t.stats.mgmtFrameErrors = 0)) = true ∧
      gives (.invalidOpcodeFrame good 1 7) up (fun t => decide (t.stats.mgmtFrameErrors = 1)) = true := by
  decide +kernel

/-- A frame in progress that MCK has left. -/
def stopped : State := { up with mgmt := { up.mgmt with rx := { phase := .header, ones := 0, bits := [], role := .unknown, timer := 64 } } }

theorem test_witness_broken_starts :
    stopped.mgmt.rx.phase ≠ .hunt ∧ 64 ≤ stopped.mgmt.rx.timer ∧ up.mgmt.rx.phase = .hunt ∧
      gives .frameTimerExpiry stopped (fun t => decide (t.mgmt.rx = Receiver.idle)) = true ∧
      gives (.startFieldMismatch 16 2) up (fun t => decide (t.mgmt.rx = Receiver.idle)) = true := by
  decide +kernel

theorem test_cut_frame_waits :
    gives (.freeze (on cut)) up (fun t => decide (t.mgmt.rx.phase = .header ∧ t.mgmt.busy = false)) = true := by
  decide +kernel

/-- A WRITE of CMD_ARG that MCK leaves after `k` bits. -/
def cutWrite (k : Nat) : Instr := .writeRegister (on { ones := 16, cut := some k }) 0x001 7

/-- A READ of NAKS_RCVD, which holds 0xA001, that MCK leaves after `k` bits, and what `p` says of the state then. -/
def cutRead (k : Nat) (p : State → Bool) : Bool :=
  gives (.counterRead { ones := 16, cut := some k } 0x088) { up with stats := { Stats.reset with naksRcvd := 0xA001 } } p

theorem test_witness_cut_frames :
    (writeRow (cutWrite 37) = some (on { ones := 16, cut := some 37 }, 0x001, 7) ∧ up.hunting ∧ (1 : BitVec 4) ≠ up.mgmt.straps ∧
      readRow up (.counterRead { ones := 16, cut := some 37 } 0x088) = some ({ ones := 16, cut := some 37 }, 1, 0x088, 0x088)) ∧
    [1, 4, 19, 37].all (fun k => gives (cutWrite k) up
      fun t => decide (t.mgmt.arg = 0 ∧ t.mgmt.rx.phase ≠ .hunt ∧ t.mgmt.rx.drive = none)) = true ∧
    cutRead 18 (fun t => decide (t.stats.naksRcvd = 0xA001 ∧ t.mgmt.lastReg = 0 ∧ t.mgmt.rx.drive = none)) = true ∧
    cutRead 19 (fun t => decide (t.stats.naksRcvd = 0 ∧ t.mgmt.lastReg = 0x088 ∧ t.mgmt.rx.drive = none ∧ t.out = [])) = true ∧
    cutRead 20 (fun t => decide (t.mgmt.rx.drive = some false)) = true ∧
    cutRead 21 (fun t => decide (t.mgmt.rx.drive = some true)) = true ∧
    cutRead 22 (fun t => decide (t.mgmt.rx.drive = some false)) = true ∧
    cutRead 36 (fun t => decide (t.mgmt.rx.drive = some true)) = true ∧
    cutRead 37 (fun t => decide (t.mgmt.rx.drive = some false ∧ t.mgmt.rx.phase = .parity)) = true := by
  decide +kernel

/-- R184: a counter of each width at its maximum, and one below it. -/
theorem test_counters_saturate :
    [(Counter.framesSent, 4294967295), (.tagErrors, 255), (.naksRcvd, 65535)].all (fun q =>
      decide (((Stats.reset.set q.1 q.2).count q.1).get q.1 = q.2 ∧
        ((Stats.reset.set q.1 (q.2 - 1)).count q.1).get q.1 = q.2)) = true ∧
      (Stats.reset.offerPeak 3).jrnPeak = 3 ∧ ((Stats.reset.offerPeak 3).offerPeak 2).jrnPeak = 3 := by
  decide +kernel

/-- Counters with something in them. -/
def counted : State := { up with stats := { Stats.reset with framesSent := 0x12345, naksRcvd := 3 } }

/-- The latch in each of its forms. -/
def latched (l : Latch) : State := { counted with mgmt := { counted.mgmt with latch := l } }

theorem test_witness_pair_low :
    line.wf = true ∧ counted.hunting ∧ counted.stats.framesSent < 2 ^ 32 ∧
      gives (.readPairLow line 0x080) counted
        (fun t => decide (t.stats.framesSent = 0 ∧ t.mgmt.latch = .capture .framesSent 0x12345)) = true ∧
      gives (.readPairLow line 0x062) counted (fun t => decide (t.mgmt.lastReg = 0x062)) = true := by
  decide +kernel

theorem test_witness_pair_high :
    (latched (.capture .framesSent 0x70000)).mgmt.latch = .capture .framesSent 0x70000 ∧
      (latched (.lowWritten .framesSent 5)).mgmt.latch = .lowWritten .framesSent 5 ∧
      (latched .invalid).mgmt.latch = .invalid ∧
      gives (.readPairHigh line 0x081) (latched (.capture .framesSent 0x70000))
        (fun t => decide (t.out.map (fun o => match o with | .mdaWord v _ => v | _ => 0) = [7])) = true ∧
      gives (.readPairHigh line 0x081) (latched .invalid)
        (fun t => decide (t.out.map (fun o => match o with | .mdaWord v _ => v | _ => 0) = [1])) = true := by
  decide +kernel

theorem test_pair_writes :
    gives (.writePairLow good 0x050 0xBEEF) up (fun t => decide (t.mgmt.latch = .lowWritten .winStgBase 0xBEEF)) = true ∧
      gives (.writePairHigh good 0x051 0xDEAD) (latched (.lowWritten .winStgBase 0xBEEF))
        (fun t => decide (t.win.stgBase = 0xDEADBEEF ∧ t.mgmt.latch = .invalid)) = true := by
  decide +kernel

theorem test_alert_writes :
    gives (.alertEnWrite good 1) (latched (.lowWritten .alertEn 0xFFFF)) (fun t => decide (t.alert.mask = 0)) = true ∧
      gives (.alertDisWrite good 0) { up with alert := { status := 0, mask := 1 } } (fun t => decide (t.alert.mask = 1)) =
        true ∧
      gives (.alertStatTestWrite good 1) up (fun t => decide (t.alert.status = 0x10000) && t.alert.asserted) = true := by
  decide +kernel

theorem test_reads_that_clear :
    gives (.alertStatRead line) { up with alert := { status := 0x10001, mask := 0 } }
        (fun t => decide (t.alert.status = 0) && !t.alert.asserted) = true ∧
      gives (.counterRead line 0x088) counted (fun t => decide (t.stats.naksRcvd = 0 ∧ t.stats.framesSent = 0x12345)) = true ∧
      gives (.jrnPeakRead line) { holding with stats := { Stats.reset with jrnPeak := 9 } }
        (fun t => decide (t.stats.jrnPeak = 1)) = true := by
  decide +kernel

theorem test_read_next :
    gives (.readNext line 0x155) { counted with mgmt := { counted.mgmt with lastReg := 0x087 } }
        (fun t => decide (t.mgmt.lastReg = 0x088 ∧ t.stats.naksRcvd = 0)) = true ∧
      gives (.readNext line 0) { up with mgmt := { up.mgmt with lastReg := 511 } } (fun t => decide (t.mgmt.lastReg = 0)) =
        true := by
  decide +kernel

theorem test_plain_reads :
    Reg.number .frzStat < 0x088 ∧ regAt (0x1FF : BitVec 9).toNat = .unimplemented ∧ regAt 0x09A = .unimplemented ∧
      (regAt 0x010 = .low .alertStat ∧ regAt 0x087 = .high .jrnMerges ∧ regAt 0x099 = .word .lockLosses) ∧
      readRow up (.alertStatRead line) = some (line, 1, 0x010, 0x010) ∧
      gives (.counterRead line 0x020) (waiting .line frozen)
        (fun t => decide (t.out.map (fun o => match o with | .mdaWord v _ => v | _ => 0) = [0x02A5])) = true ∧
      gives (.counterRead line 0x060) openSent
        (fun t => decide (t.out.map (fun o => match o with | .mdaWord v _ => v | _ => 0) = [0x0205])) = true ∧
      gives (.counterRead line 0x1FF) up (fun t => decide (t.mgmt.lastReg = 0x1FF)) = true ∧
      (stalled .marker sending).readPair .spListStat = 0x10840 ∧ freezeWaits.readReg .cmdStat = 0x0101 := by
  decide +kernel

theorem test_plain_writes :
    gives (.writeRegister good 0x001 7) up (fun t => decide (t.mgmt.arg = 7)) = true ∧
      gives (.writeRegister good 0x1FF 7) up (fun t => decide (t.mgmt.lastReg = 0x1FF ∧ t.mgmt.arg = 0)) = true := by
  decide +kernel

theorem test_witness_watermarks :
    (regAt (0x1FF : BitVec 9).toNat = .unimplemented ∧ regAt (0x020 : BitVec 9).toNat = .word .frzStat) ∧ ((1 : Nat) ≤ 1791 ∧ 1791 < up.jrn.hwm.toNat ∧ up.jrn.hwm.toNat ≤ 2048) ∧
      ¬((1792 : Nat) < up.jrn.hwm.toNat) ∧
      gives (.jrnHwmWrite good 2048) up (fun t => decide (t.jrn.hwm = 2048)) = true ∧
      gives (.jrnHwmWrite good 2049) up (fun t => decide (t.jrn.hwm = 1792)) = true ∧
      gives (.jrnLwmWrite good 1791) { up with jrn := { up.jrn with armed := false } }
        (fun t => decide (t.jrn.lwm = 1791) && t.jrn.armed) = true ∧
      gives (.drnFaultInfoWrite good 3) { up with jrn := { up.jrn with fault := { DrainFault.clear with count := 4 } } }
        (fun t => decide (t.jrn.fault = DrainFault.clear)) = true := by
  decide +kernel

theorem test_witness_arbiter_write :
    (BitVec.ofNat 4 (0x0111 : Word16).toNat ≠ 0 ∧ BitVec.ofNat 4 ((0x0111 : Word16).toNat / 256) ≠ 0) ∧
      BitVec.ofNat 4 (0x0011 : Word16).toNat ≠ 0 ∧ BitVec.ofNat 4 ((0x0011 : Word16).toNat / 256) = 0 ∧
      gives (.arbCfgWrite good 0x0123) up (fun t => decide (t.mp.cfg = ⟨3, 2, 1⟩ ∧ t.mp.cur = ⟨8, 4, 4⟩)) = true ∧
      gives (.arbCfgWrite good 0x0120) up (fun t => decide (t.mp.cfg = ⟨8, 4, 4⟩)) = true ∧
      gives (.tickDivWrite good 50) up (fun t => decide (t.mgmt.tickDiv = 50 ∧ t.mgmt.tickLen = 100)) = true ∧
      gives .tickDividerApplied { up with mgmt := { up.mgmt with tickDiv := 50 } } (fun t => decide (t.mgmt.tickLen = 50)) =
        true := by
  decide +kernel

theorem test_sampled_edge :
    (up.frz.lineSeenLow = true ∧ ({ up with frz := { up.frz with lineSeenLow := false } } : State).frz.lineSeenLow = false) ∧
      gives (.tick true) up (fun t => decide (t.frz.history.length = 1) && !t.frz.lineSeenLow) = true ∧
      gives (.tick true) { up with frz := { up.frz with lineSeenLow := false } }
        (fun t => decide (t.frz.history = []) && !t.frz.lineSeenLow) = true := by
  decide +kernel

theorem test_tick :
    gives (.tick false) openSent (fun t => decide (t.lnk.ackTimer = 201)) = true ∧
      gives (.tick true) (due .exhaustion frozen) (fun t => decide (t.frz.stallTimer = 1001 ∧ t.frz.epochTimer = 1)) = true := by
  decide +kernel

end Sys2Proof.Tests
end

/-! ## The configuration: every step keeps it (01 R40 and its like) -/

namespace Sys2Proof.Machine

/-! ### The newest record (R2, R26) -/

theorem Frz.active_cons {z : Frz} {r : EpochRecord} {older : List EpochRecord} (h : z.history = r :: older) :
    z.active = r.state.active := by simp only [Frz.active, h]

theorem Frz.capturing_cons {z : Frz} {r : EpochRecord} {older : List EpochRecord} (h : z.history = r :: older) :
    z.capturing = decide (r.state = .capturing) := by simp only [Frz.capturing, h]

theorem Frz.epoch_cons {z : Frz} {r : EpochRecord} {older : List EpochRecord} (h : z.history = r :: older) :
    z.epoch = r.number := by simp only [Frz.epoch, h]

theorem Frz.update_cons {z : Frz} {r : EpochRecord} {older : List EpochRecord} (h : z.history = r :: older)
    (f : EpochRecord → EpochRecord) : z.update f = { z with history := f r :: older } := by
  simp only [Frz.update, h]

theorem Frz.active_iff (z : Frz) :
    z.active = true ↔ ∃ r older, z.history = r :: older ∧ r.state.active = true := by
  cases h : z.history with
  | nil => simp [Frz.active, h]
  | cons r older => simp [Frz.active_cons h]

theorem Frz.capturing_iff (z : Frz) :
    z.capturing = true ↔ ∃ r older, z.history = r :: older ∧ r.state = .capturing := by
  cases h : z.history with
  | nil => simp [Frz.capturing, h]
  | cons r older => simp [Frz.capturing_cons h]

theorem Frz.active_of_capturing {z : Frz} (h : z.capturing = true) : z.active = true := by
  obtain ⟨r, older, hh, hs⟩ := z.capturing_iff.1 h
  rw [Frz.active_cons hh, hs]
  rfl

theorem Frz.tail_update (z : Frz) (f : EpochRecord → EpochRecord) : (z.update f).history.tail = z.history.tail := by
  cases h : z.history <;> simp [Frz.update, h]

theorem Frz.active_update (z : Frz) (f : EpochRecord → EpochRecord) (hf : ∀ r, (f r).state = r.state) :
    (z.update f).active = z.active := by
  cases h : z.history with
  | nil => simp [Frz.active, Frz.update, h]
  | cons r older => rw [Frz.update_cons h, Frz.active_cons h, Frz.active_cons rfl, hf]

theorem Frz.capturing_update (z : Frz) (f : EpochRecord → EpochRecord) (hf : ∀ r, (f r).state = r.state) :
    (z.update f).capturing = z.capturing := by
  cases h : z.history with
  | nil => simp [Frz.capturing, Frz.update, h]
  | cons r older => rw [Frz.update_cons h, Frz.capturing_cons h, Frz.capturing_cons rfl, hf]

/-! ### What a step keeps of the configuration (R40, R109, R110, R146, R192) -/

theorem State.configKept_of_undisturbed {s t : State} (u : s.Undisturbed t) (h : s.configKept) : t.configKept := by
  unfold State.configKept
  rw [u.lwm, u.hwm, u.ackTmo, u.retryLim, u.mp, u.tickDiv, u.tickLen]
  exact h

theorem State.configKept_breakEpoch {s : State} (c : BreakCause) (h : s.configKept) : (s.breakEpoch c).configKept :=
  State.configKept_of_undisturbed (s.undisturbed_breakEpoch c) h

theorem State.configKept_startRound {s : State} (n : Nat) (h : s.configKept) : (s.startRound n).configKept := by
  unfold State.startRound
  split
  · exact State.configKept_breakEpoch _ h
  · exact h

theorem State.configKept_send {s : State} (h : s.configKept) : s.sendToMemory.configKept := by
  obtain ⟨q, n, o, e, -, -⟩ := s.sendToMemory_eq
  rw [e]
  exact h

theorem State.configKept_endDrain {s : State} (h : s.configKept) : s.endDrain.configKept :=
  State.configKept_of_undisturbed s.undisturbed_endDrain h

theorem State.configKept_drainDone {s : State} (e : JEntry) (ok : Bool) (h : s.configKept) : (s.drainDone e ok).configKept := by
  unfold State.drainDone
  split
  · split
    · exact h
    · exact State.configKept_endDrain h
  · split
    · exact h
    · exact State.configKept_endDrain h

theorem State.configKept_copierDone {s : State} (ok : Bool) (data : Block) (h : s.configKept) :
    (s.copierDone ok data).configKept := by
  unfold State.copierDone State.copierReadDone
  simp only
  split
  · exact h
  · split
    · split
      · split
        · exact State.configKept_of_undisturbed (State.undisturbed_captureComplete _) h
        · exact h
      · exact h
    · exact State.configKept_breakEpoch _ h

theorem State.configKept_grantTo {s : State} (r : Requester) (h : s.configKept) : (s.grantTo r).configKept := by
  unfold State.grantTo
  split
  · split <;> exact h
  · split <;> exact h
  · obtain ⟨reads, pos, slots, e⟩ := s.copierIssue_eq
    rw [e]
    exact h

/-- R144, R146: the arbiter moves on from one set of weights in force to the stored ones, of which none is 0. -/
theorem State.configKept_arbitrate {s : State} (work : Requester → Bool) (k : Nat) (h : s.configKept) :
    State.configKept { s with mp := (Mp.seek work k s.mp).won } := by
  obtain ⟨pos, n, cur, hs, hc⟩ := Mp.seek_eq work k s.mp
  obtain ⟨pos', n', cur', hw, hc'⟩ := (Mp.seek work k s.mp).won_eq
  obtain ⟨hj, hack, hr, hcfg, hcur, ht⟩ := h
  rw [hs] at hw hc'
  rw [hs, hw]
  refine ⟨hj, hack, hr, hcfg, ?_, ht⟩
  have hcur₁ : cur.positive := by rcases hc with rfl | rfl <;> assumption
  rcases hc' with rfl | rfl <;> assumption

theorem State.configKept_completionClosed : CompletionClosed State.configKept where
  alert _ _ h := h
  stats _ _ h := h
  out _ _ h := h
  retire _ _ _ _ _ h := h
  send _ h := State.configKept_send h
  dropRead _ _ h := h
  dropWrite _ _ h := h
  drainDone _ _ e ok _ h := State.configKept_drainDone e ok h
  copierDone _ ok data h := State.configKept_copierDone ok data h

theorem State.configKept_commandClosed : CommandClosed State.configKept where
  mgmt s g _ _ hl hd h := by
    show _ ∧ _ ∧ _ ∧ _ ∧ _ ∧ g.tickDiv ≠ 0 ∧ g.tickLen ≠ 0
    rw [hl, hd]
    exact h
  alert _ _ h := h
  stats _ _ h := h
  resetting _ h := h
  baseline _ h := h
  slot _ _ h := h
  staging _ _ _ h := h
  table _ _ _ _ _ _ h := h
  freezePoint _ _ _ h := State.configKept_of_undisturbed (State.undisturbed_freezePoint _ _ _) h
  cancelSlot _ h := State.configKept_of_undisturbed (State.undisturbed_cancelSlot _) h
  breakEpoch _ c h := State.configKept_breakEpoch c h

theorem State.configKept_reset : State.reset.configKept := by decide

theorem State.configKept_stepClosed : StepClosed State.configKept where
  writeCmd s code h := State.configKept_commandClosed.writeCmd s code h
  mgmt s g _ _ hl hd _ _ h := by
    obtain ⟨hj, hack, hr, hcfg, hcur, hdiv, hlen⟩ := h
    refine ⟨hj, hack, hr, hcfg, hcur, ?_, ?_⟩
    · exact hd.elim (fun e => e.symm ▸ hdiv) id
    · exact hl.symm ▸ hlen
  alert _ _ h := h
  stats _ _ h := h
  kinds _ _ _ h := h
  stallLimit _ _ h := h
  epochLimit _ _ h := h
  hwm _ _ hw h := ⟨(watermarksOk_iff _ _).1 hw, h.2⟩
  lwm _ _ _ hw h := ⟨(watermarksOk_iff _ _).1 hw, h.2⟩
  policy _ _ h := h
  fault _ _ h := h
  staging _ _ _ h := h
  ackTmo _ _ hv h := ⟨h.1, hv, h.2.2⟩
  retryLim _ _ h1 h15 h := ⟨h.1, h.2.1, ⟨h1, h15⟩, h.2.2.2⟩
  pauseLim _ _ h := h
  weights _ _ hl hd hc h := by
    obtain ⟨hj, hack, hr, -, hcur, ht⟩ := h
    exact ⟨hj, hack, hr, ⟨hl, hd, hc⟩, hcur, ht⟩
  breakEpoch _ c h := State.configKept_breakEpoch c h
  stallExpire _ h := State.configKept_of_undisturbed (State.undisturbed_stallExpire _) h
  ackExpire s h := State.configKept_startRound (s := s.count .ackTimeouts) _ h
  pending _ _ h := h
  rx _ _ h := h
  tickLen s h := by
    obtain ⟨hj, hack, hr, hcfg, hcur, hdiv, -⟩ := h
    exact ⟨hj, hack, hr, hcfg, hcur, hdiv, hdiv⟩
  out _ _ h := h
  powerOn _ _ _ _ := State.configKept_reset
  finalStep _ _ _ := State.configKept_reset
  portReset _ h := h
  lineSeenLow _ _ h := h
  freeze _ _ _ _ h := State.configKept_of_undisturbed (State.undisturbed_freezePoint _ _ _) h
  evaluate _ h := State.configKept_of_undisturbed (State.undisturbed_evaluate _) h
  linkUp _ h := h
  lose _ h := h
  arriveRead _ _ _ h := h
  arriveWrite _ _ _ h := h
  popRead _ _ h := h
  popWrite _ _ _ h := h
  addRead _ _ _ _ h := h
  straight _ _ _ _ _ h := h
  merge _ _ _ _ _ h := h
  allocate _ _ _ _ _ _ h := h
  exhaust _ w _ _ _ _ h := State.configKept_of_undisturbed (State.undisturbed_exhaust _ w) h
  lineWaits _ _ _ h := h
  markerWaits _ _ _ _ _ _ _ h := h
  send _ h := State.configKept_send h
  grant _ _ h := State.configKept_grantTo _ (State.configKept_arbitrate _ _ h)
  complete s e rest ok data hq hi h := State.configKept_completionClosed.complete s e rest ok data hq hi h
  placeFill _ _ _ _ _ h := h
  placeEnd _ _ _ _ h := h
  startFrame _ _ _ h := h
  lineBusy _ _ _ h := h
  acknowledge _ _ _ _ _ h := h
  nakRound s n _ _ _ h := State.configKept_startRound (s := { s with lnk := s.lnk.ackBelow n }) _ h
  setPause _ _ h := h
  commit _ _ _ _ h := State.configKept_of_undisturbed (State.undisturbed_evaluate _) h
  rejected _ _ _ h := h
  ticks _ h := h

end Sys2Proof.Machine


/-! ## The phases: freeze state, epoch state, copier and link controller in step with one another -/

namespace Sys2Proof.Machine

/-! ### Phases: what a change must keep -/

/-- What an occupied slot must fit to: an epoch is active, END stands in it only when the copier has finished, and it fills
only during capture. -/
structure State.SlotFits (s : State) (q : Slot) : Prop where
  active : s.frz.active = true
  endBuilt : q.frame.isEnd = true → s.cap.st = .idle
  filling : q.st = .filling → s.frz.capturing = true

/-- `t` stands in the phase of `s`: what `State.PhasesKept` speaks of, its slots apart, is the same. -/
structure State.SamePhase (s t : State) : Prop where
  st : t.frz.st = s.frz.st
  older : t.frz.history.tail = s.frz.history.tail
  active : t.frz.active = s.frz.active
  capturing : t.frz.capturing = s.frz.capturing
  ctl : t.lnk.ctl = s.lnk.ctl
  cap : t.cap.st = s.cap.st
  img : t.maps.img = s.maps.img

/-- Changed otherwise than in its state, the newest record stays in its phase. -/
theorem State.SamePhase.of_update {s t : State} {f : EpochRecord → EpochRecord} (hz : t.frz = s.frz.update f)
    (hf : ∀ r, (f r).state = r.state) (hc : t.lnk.ctl = s.lnk.ctl) (hp : t.cap.st = s.cap.st)
    (hi : t.maps.img = s.maps.img) : s.SamePhase t where
  st := by rw [hz]; rfl
  older := by rw [hz, Frz.tail_update]
  active := by rw [hz, Frz.active_update _ _ hf]
  capturing := by rw [hz, Frz.capturing_update _ _ hf]
  ctl := hc
  cap := hp
  img := hi

theorem State.SlotFits.of_slot {s : State} {p q : Slot} (h : s.SlotFits p)
    (hf : q.frame.isEnd = true → p.frame.isEnd = true) (hs : q.st = .filling → p.st = .filling) : s.SlotFits q :=
  ⟨h.active, fun e => h.endBuilt (hf e), fun e => h.filling (hs e)⟩

namespace State.PhasesKept

variable {s t : State} (h : s.PhasesKept)
include h

theorem active_of_slot {q : Slot} (hq : q ∈ s.lnk.slots) : s.frz.active = true := by
  by_contra ha
  rw [h.slotsFree (by simpa using ha)] at hq
  cases hq

theorem fits {q : Slot} (hq : q ∈ s.lnk.slots) : s.SlotFits q := ⟨h.active_of_slot hq, h.endBuilt q hq, h.filling q hq⟩

/-- In the same phase, with slots that fit to it. -/
theorem transfer (e : s.SamePhase t) (hs : ∀ q ∈ t.lnk.slots, s.SlotFits q) : t.PhasesKept where
  frozen := by rw [e.st, e.capturing]; exact h.frozen
  older := by rw [e.older]; exact h.older
  linkIdle := by rw [e.ctl, e.active]; exact h.linkIdle
  linkSending := by rw [e.ctl, e.capturing]; exact h.linkSending
  copying := by rw [e.cap, e.capturing]; exact h.copying
  closing := by rw [e.cap, e.active]; exact h.closing
  awaiting := by rw [e.ctl, e.cap]; exact h.awaiting
  slotsFree ha := List.eq_nil_iff_forall_not_mem.2 fun q hq => by
    rw [e.active, (hs q hq).active] at ha
    cases ha
  endBuilt q hq := by rw [e.cap]; exact (hs q hq).endBuilt
  filling q hq := by rw [e.capturing]; exact (hs q hq).filling
  imageClear := by rw [e.active, e.img]; exact h.imageClear

/-- In the same phase, with the same slots. -/
theorem same (e : s.SamePhase t) (hs : t.lnk.slots = s.lnk.slots) : t.PhasesKept :=
  h.transfer e fun _ hq => h.fits (hs ▸ hq)

/-- Nothing that the phases speak of has changed. -/
theorem congr (hst : t.frz.st = s.frz.st := by rfl) (hh : t.frz.history = s.frz.history := by rfl)
    (hc : t.lnk.ctl = s.lnk.ctl := by rfl) (hs : t.lnk.slots = s.lnk.slots := by rfl)
    (hp : t.cap.st = s.cap.st := by rfl) (hi : t.maps.img = s.maps.img := by rfl) : t.PhasesKept :=
  h.same ⟨hst, by rw [hh], by simp only [Frz.active, hh], by simp only [Frz.capturing, hh], hc, hp, hi⟩ hs

/-- The slots are those there were, each changed in a way that keeps END and begins no filling. -/
theorem mapSlots (f : Slot → Slot) (hf : ∀ q, (f q).frame.isEnd = true → q.frame.isEnd = true)
    (hst : ∀ q, (f q).st = .filling → q.st = .filling) (e : s.SamePhase t) (hs : t.lnk.slots = s.lnk.slots.map f) :
    t.PhasesKept :=
  h.transfer e fun q hq => by
    rw [hs] at hq
    obtain ⟨p, hp, rfl⟩ := List.mem_map.1 hq
    exact (h.fits hp).of_slot (hf p) (hst p)

/-- A slot more, which fits. -/
theorem addSlot (q : Slot) (e : s.SamePhase t) (hs : t.lnk.slots = s.lnk.slots ++ [q]) (hq : s.SlotFits q) :
    t.PhasesKept :=
  h.transfer e fun p hp => by
    rw [hs] at hp
    rcases List.mem_append.1 hp with hp | hp
    · exact h.fits hp
    · rw [List.mem_singleton.1 hp]; exact hq

/-- A copier at work works for an active epoch. -/
theorem active_of_cap (hc : s.cap.st ≠ .idle) : s.frz.active = true := by
  cases hs : s.cap.st with
  | idle => exact absurd hs hc
  | copying => exact Frz.active_of_capturing (h.copying.1 hs)
  | closing => exact h.closing hs

theorem not_capturing_of_cap (hc : s.cap.st ≠ .copying) : s.frz.capturing = false := by
  simpa using mt h.copying.2 hc

theorem history_inactive (ha : s.frz.active = false) : ∀ r ∈ s.frz.history, r.state.active = false := by
  intro r hr
  cases hh : s.frz.history with
  | nil => rw [hh] at hr; cases hr
  | cons x older =>
    rw [hh] at hr
    rcases List.mem_cons.1 hr with rfl | hr
    · rwa [Frz.active_cons hh] at ha
    · exact h.older r (by rw [hh]; exact hr)

end State.PhasesKept

theorem mem_updateFirst {p : Slot → Bool} {f : Slot → Slot} {q : Slot} {slots : List Slot}
    (h : q ∈ updateFirst p f slots) : q ∈ slots ∨ ∃ x ∈ slots, p x = true ∧ q = f x := by
  induction slots with
  | nil => cases h
  | cons x xs ih =>
    unfold updateFirst at h
    split at h
    · rcases List.mem_cons.1 h with rfl | h
      · exact .inr ⟨x, List.mem_cons_self, ‹_›, rfl⟩
      · exact .inl (List.mem_cons_of_mem _ h)
    · rcases List.mem_cons.1 h with rfl | h
      · exact .inl List.mem_cons_self
      · rcases ih h with h | ⟨y, hy, hp, e⟩
        · exact .inl (List.mem_cons_of_mem _ h)
        · exact .inr ⟨y, List.mem_cons_of_mem _ hy, hp, e⟩

/-! ### Takes, the slot of requests, and the end of a stall -/

@[simp] theorem Maps.mark_img (m : Maps) (table : List Window) (a : Addr) : (m.mark table a).img = m.img := by
  unfold Maps.mark; split <;> rfl

theorem State.PhasesKept.takeStraight {s : State} (h : s.PhasesKept) (w : WriteReq) : (s.takeStraight w).PhasesKept :=
  h.congr (hi := Maps.mark_img _ _ _)

theorem State.PhasesKept.takeMerge {s : State} (h : s.PhasesKept) (w : WriteReq) : (s.takeMerge w).PhasesKept :=
  h.congr (hi := Maps.mark_img _ _ _)

theorem State.PhasesKept.takeAllocate {s : State} (h : s.PhasesKept) (w : WriteReq) (i : Nat) :
    (s.takeAllocate w i).PhasesKept :=
  h.congr (hi := Maps.mark_img _ _ _)

theorem State.PhasesKept.takePlain {s : State} (h : s.PhasesKept) (w : WriteReq) : (s.takePlain w).PhasesKept := by
  unfold State.takePlain
  split
  · exact h.takeMerge w
  · exact h.takeAllocate w _
  · exact h.takeStraight w
  · exact h.takeStraight w

theorem State.PhasesKept.endStallWith {s : State} (h : s.PhasesKept) {take : State → WriteReq → State}
    (ht : ∀ w, (take s w).PhasesKept) : (s.endStallWith take).PhasesKept := by
  unfold State.endStallWith
  split
  · exact ht _
  · exact h.congr

theorem State.PhasesKept.emptySlot {s : State} (h : s.PhasesKept) : s.emptySlot.PhasesKept :=
  h.congr

theorem State.PhasesKept.cancelSlot {s : State} (h : s.PhasesKept) : s.cancelSlot.PhasesKept := by
  unfold State.cancelSlot
  split
  · exact h
  · split
    · exact h.emptySlot.endStallWith h.emptySlot.takePlain
    · exact h.emptySlot
    · exact h.emptySlot

theorem State.PhasesKept.endExhaustion {s : State} (h : s.PhasesKept) : s.endExhaustion.PhasesKept := by
  unfold State.endExhaustion
  split
  · exact h.endStallWith h.takeStraight
  · exact h

/-! ### Capture complete and the freeze point -/

/-- R16, R83: capture complete ends the phase CAPTURING, with no slot FILLING left. -/
theorem State.PhasesKept.captureComplete {s : State} (h : s.PhasesKept) (hc : s.frz.capturing = true)
    (hs : ∀ q ∈ s.lnk.slots, q.st ≠ .filling) : s.captureComplete.PhasesKept := by
  obtain ⟨r, older, hh, hr⟩ := s.frz.capturing_iff.1 hc
  have hcopying : s.cap.st = .copying := h.copying.2 hc
  refine State.PhasesKept.endExhaustion ?_
  rw [Frz.update_cons hh]
  constructor
  case frozen => cases hj : s.jrn.entries.isEmpty <;> simp [State.leaveFrozen, Frz.capturing, hj]
  case older => simpa [State.leaveFrozen, hh] using h.older
  case endBuilt =>
    intro q hq he
    rw [h.endBuilt q hq he] at hcopying
    cases hcopying
  case filling => exact fun q hq hf => absurd hf (hs q hq)
  all_goals simp [State.leaveFrozen, Frz.active, Frz.capturing, EpochState.active]

/-- R6: the record of the new epoch is CAPTURING. -/
theorem Frz.capturing_beginEpoch (z : Frz) (src : Source) (k : Kind) : (z.beginEpoch src k).capturing = true := rfl

theorem State.PhasesKept.beginEpoch {s : State} (h : s.PhasesKept) (ha : s.frz.active = false) (src : Source) (k : Kind) :
    (s.beginEpoch src k).PhasesKept ∧ (s.beginEpoch src k).frz.capturing = true ∧
      ∀ q ∈ (s.beginEpoch src k).lnk.slots, q.st = .ready := by
  obtain ⟨n, more, e, -, -, hmore, -⟩ := s.beginEpoch_eq src k
  rw [e]
  have hslots : ∀ (f : Frame), f.isEnd = false → ∀ q ∈ ({ st := .ready, seq := 0, frame := f, issued := 0 } : Slot) :: more,
      q.st = .ready ∧ q.frame.isEnd = false := by
    intro f hf q hq
    rcases List.mem_cons.1 hq with rfl | hq
    · exact ⟨rfl, hf⟩
    · exact hmore q hq
  have hcap := s.frz.capturing_beginEpoch src k
  have hact := Frz.active_of_capturing hcap
  refine ⟨?_, hcap, fun q hq => (hslots _ rfl q hq).1⟩
  constructor
  case older =>
    intro r hr
    exact h.history_inactive ha r (List.mem_of_mem_take hr)
  case endBuilt =>
    intro q hq he
    rw [(hslots _ rfl q hq).2] at he
    cases he
  case frozen => exact iff_of_true rfl hcap
  case linkSending => exact iff_of_true rfl hcap
  case copying => exact iff_of_true rfl hcap
  case linkIdle => exact iff_of_false (by simp [Lnk.begin]) (by simp [hact])
  case closing => exact fun _ => hact
  case awaiting => exact fun hw => by cases hw
  case slotsFree => exact fun hn => by rw [hact] at hn; cases hn
  case imageClear => exact fun hn => by rw [hact] at hn; cases hn
  case filling => exact fun _ _ _ => hcap

theorem State.PhasesKept.freezePoint {s : State} (h : s.PhasesKept) (ha : s.frz.active = false) (src : Source) (k : Kind) :
    (s.freezePoint src k).PhasesKept := by
  obtain ⟨hb, hc, hs⟩ := h.beginEpoch ha src k
  unfold State.freezePoint
  simp only
  split
  · exact hb
  · exact hb.captureComplete hc fun q hq => by simp [hs q hq]

theorem State.active_endStallWith_takeStraight (s : State) :
    (s.endStallWith State.takeStraight).frz.active = s.frz.active := by
  unfold State.endStallWith; split <;> rfl

theorem State.PhasesKept.takeEffect {s : State} (h : s.PhasesKept) (ha : s.frz.active = false) (q : FreezeReq) :
    (s.takeEffect q).PhasesKept := by
  have he := h.emptySlot
  unfold State.takeEffect
  split
  · exact (he.freezePoint ha _ _).congr
  · exact he.freezePoint ha _ _
  · exact (he.endStallWith he.takeStraight).freezePoint ((State.active_endStallWith_takeStraight _).trans ha) _ _

theorem State.PhasesKept.evaluate {s : State} (h : s.PhasesKept) : s.evaluate.PhasesKept := by
  unfold State.evaluate
  split
  · split
    · exact h.takeEffect ((s.canFreeze_iff.1 ‹_›).2.1) _
    · exact h
  · exact h

/-! ### Breaks, commits and the end of the drain -/

/-- R2, R70, R74, R92: the phase in which no epoch is active. -/
theorem State.PhasesKept.of_ended {t : State} (hh : ∀ r ∈ t.frz.history, r.state.active = false) (hf : t.frz.st ≠ .frozen)
    (hctl : t.lnk.ctl = .idle) (hslots : t.lnk.slots = []) (hcap : t.cap.st = .idle) (himg : t.maps.img = []) :
    t.PhasesKept := by
  have ha : t.frz.active = false := by
    refine Bool.eq_false_iff.2 fun hn => ?_
    obtain ⟨r, older, e, hr⟩ := t.frz.active_iff.1 hn
    exact Bool.eq_false_iff.1 (hh r (e ▸ List.mem_cons_self)) hr
  have hc : t.frz.capturing = false := Bool.eq_false_iff.2 fun hn => Bool.eq_false_iff.1 ha (Frz.active_of_capturing hn)
  constructor
  case older => exact fun r hr => hh r (List.mem_of_mem_tail hr)
  all_goals simp [ha, hc, hf, hctl, hslots, hcap, himg]

theorem Cap.stop_st (c : Cap) : c.stop.st = .idle := by
  unfold Cap.stop
  split
  · assumption
  · rfl

/-- The newest record takes a state that is not active: no record is active then. -/
theorem State.PhasesKept.inactive_update {s : State} (h : s.PhasesKept) (f : EpochRecord → EpochRecord)
    (hf : ∀ r, (f r).state.active = false) : ∀ r ∈ (s.frz.update f).history, r.state.active = false := by
  intro r hr
  cases hh : s.frz.history with
  | nil => simp [Frz.update, hh] at hr
  | cons x older =>
    rw [Frz.update_cons hh] at hr
    rcases List.mem_cons.1 hr with rfl | hr
    · exact hf x
    · exact h.older r (by rw [hh]; exact hr)

theorem State.PhasesKept.breakNow {s : State} (h : s.PhasesKept) (c : BreakCause) : (s.breakNow c).PhasesKept := by
  have hh : ∀ r ∈ (s.breakCore c).frz.history, r.state.active = false := h.inactive_update _ fun _ => rfl
  unfold State.breakNow
  split
  · refine (State.PhasesKept.of_ended (t := (s.breakCore c).leaveFrozen) hh ?_ rfl rfl s.cap.stop_st rfl).endExhaustion
    cases hj : s.jrn.entries.isEmpty <;> simp [State.leaveFrozen, hj]
  · exact .of_ended hh (fun hf => absurd (h.frozen.1 hf) ‹_›) rfl rfl s.cap.stop_st rfl

theorem State.PhasesKept.breakEpoch {s : State} (h : s.PhasesKept) (c : BreakCause) : (s.breakEpoch c).PhasesKept := by
  unfold State.breakEpoch
  split
  · exact (h.breakNow c).evaluate
  · exact h

theorem State.PhasesKept.stallExpire {s : State} (h : s.PhasesKept) : s.stallExpire.PhasesKept := by
  unfold State.stallExpire
  split
  · exact (h.emptySlot.endStallWith h.emptySlot.takePlain).congr
  · exact h.breakEpoch _
  · exact h

theorem State.PhasesKept.exhaust {s : State} (h : s.PhasesKept) (w : WriteReq) : (s.exhaust w).PhasesKept := by
  unfold State.exhaust
  split
  · exact (h.breakEpoch _).takeStraight w
  · exact h.congr

/-- R18, R106: the accepted COMMIT of an epoch whose END has been built. -/
theorem State.PhasesKept.commit {s : State} (h : s.PhasesKept) (epoch : Word16) (hw : s.lnk.ctl = .awaitCommit) :
    (State.commitEpoch { s with lnk := s.lnk.acceptCommit s.cap.plan.length epoch }).PhasesKept := by
  have hcap := h.awaiting hw
  have hc := h.not_capturing_of_cap (by rw [hcap]; decide)
  refine State.PhasesKept.evaluate (.of_ended (h.inactive_update _ fun _ => rfl) ?_ rfl rfl hcap rfl)
  exact fun hf => Bool.eq_false_iff.1 hc (h.frozen.1 hf)

theorem State.PhasesKept.endDrain {s : State} (h : s.PhasesKept) : s.endDrain.PhasesKept := by
  unfold State.endDrain
  split
  · rename_i hd
    have hc : ¬s.frz.capturing = true := mt h.frozen.2 (by simp [hd.1])
    exact State.PhasesKept.evaluate { h with frozen := iff_of_false (by simp) hc }
  · exact h

theorem State.PhasesKept.drainDone {s : State} (h : s.PhasesKept) (e : JEntry) (ok : Bool) : (s.drainDone e ok).PhasesKept := by
  unfold State.drainDone
  split
  · split
    · exact h.congr
    · exact State.PhasesKept.endDrain (h.congr)
  · split
    · exact h.congr
    · exact State.PhasesKept.endDrain (h.congr)

/-! ### The copier -/

@[simp] theorem Frame.extend_isEnd (f : Frame) (bs : List Byte) : (f.extend bs).isEnd = f.isEnd := by cases f <;> rfl

theorem Slot.receive_filling {q : Slot} {b : Block} (h : (q.receive b).st = .filling) : q.st = .filling := by
  unfold Slot.receive at h
  simp only at h
  split at h
  · cases h
  · exact h

theorem State.samePhase_storeRead (s : State) (q : Slot) (b : Block) : s.SamePhase (s.storeRead q b) :=
  .of_update rfl (fun _ => rfl) rfl rfl rfl

/-- R81: the bytes of a read join the oldest FILLING slot. -/
theorem State.PhasesKept.storeRead {s : State} (h : s.PhasesKept) (q : Slot) (b : Block) : (s.storeRead q b).PhasesKept := by
  refine h.transfer (s.samePhase_storeRead q b) fun p hp => ?_
  rcases mem_updateFirst hp with hp | ⟨x, hx, -, rfl⟩
  · exact h.fits hp
  · exact (h.fits hx).of_slot (by simp [Slot.receive]) Slot.receive_filling

/-- R83: where the last DATA frame is complete no slot is FILLING. -/
theorem State.imageRead_filling {s : State} (h : s.imageRead = true) : ∀ q ∈ s.lnk.slots, q.st ≠ .filling := by
  unfold State.imageRead at h
  rw [Bool.and_eq_true, Bool.not_eq_true', Bool.not_eq_true'] at h
  intro q hq hf
  exact List.any_eq_false.1 h.2 q hq (by simp [Slot.isFilling, hf])

theorem State.PhasesKept.copierReadDone {s : State} (h : s.PhasesKept) (ok : Bool) (data : Block) :
    (s.copierReadDone ok data).PhasesKept := by
  unfold State.copierReadDone
  split
  · split
    · rename_i q hq
      have hfill : q.st = .filling := by simpa [Slot.isFilling] using List.find?_some hq
      have hc : s.frz.capturing = true := h.filling q (List.mem_of_find?_eq_some hq) hfill
      have hs := h.storeRead q data
      simp only
      split
      · exact hs.captureComplete ((s.samePhase_storeRead q data).capturing.trans hc) (State.imageRead_filling ‹_›)
      · exact hs
    · exact h
  · exact h.breakEpoch _

theorem State.PhasesKept.copierDone {s : State} (h : s.PhasesKept) (ok : Bool) (data : Block) :
    (s.copierDone ok data).PhasesKept := by
  have ht : State.PhasesKept { s with cap := { s.cap with reads := s.cap.reads - 1, stale := s.cap.stale - 1 } } :=
    h.congr
  unfold State.copierDone
  simp only
  split
  · exact ht
  · exact ht.copierReadDone ok data

/-- R80: the copier issues a read only while COPYING, which is during capture. -/
theorem State.PhasesKept.copierIssue {s : State} (h : s.PhasesKept) (hw : s.copierHasRead = true) :
    s.copierIssue.1.PhasesKept := by
  have hcap : s.cap.st = .copying := by
    simp only [State.copierHasRead, Bool.and_eq_true, decide_eq_true_eq] at hw
    exact hw.1.1
  have hc := h.copying.1 hcap
  unfold State.copierIssue
  split
  · refine h.transfer ⟨rfl, rfl, rfl, rfl, rfl, rfl, rfl⟩ fun p hp => ?_
    rcases mem_updateFirst hp with hp | ⟨x, hx, -, rfl⟩
    · exact h.fits hp
    · exact (h.fits hx).of_slot id id
  · split
    · exact h.addSlot (s.newDataSlot _ _ _) ⟨rfl, rfl, rfl, rfl, rfl, rfl, rfl⟩ rfl
        ⟨Frz.active_of_capturing hc, nofun, fun _ => hc⟩
    · exact h

theorem State.PhasesKept.grantTo {s : State} (h : s.PhasesKept) (r : Requester) (hw : s.hasWork r = true) :
    (s.grantTo r).PhasesKept := by
  cases r with
  | live =>
    unfold State.grantTo
    simp only
    split
    · exact h.congr
    · exact h
  | drain =>
    unfold State.grantTo
    simp only
    split
    · exact h.congr
    · exact h
  | copier => exact (h.copierIssue hw).congr

/-- R77: a FILL frame takes a slot. -/
theorem State.PhasesKept.placeFill {s : State} (h : s.PhasesKept) (i : Nat) (hc : s.cap.st ≠ .idle) :
    (s.placeFill i).PhasesKept :=
  h.addSlot { st := .ready, seq := s.cap.pos, frame := s.fillFrame i, issued := 0 } ⟨rfl, rfl, rfl, rfl, rfl, rfl, rfl⟩ rfl
    ⟨h.active_of_cap hc, nofun, nofun⟩

/-- R84: END takes a slot and the copier becomes IDLE. -/
theorem State.PhasesKept.placeEnd {s : State} (h : s.PhasesKept) (hc : s.cap.st = .closing) : s.placeEnd.PhasesKept := by
  have hact : s.placeEnd.frz.active = s.frz.active := Frz.active_update s.frz _ fun _ => rfl
  have hcap : s.placeEnd.frz.capturing = s.frz.capturing := Frz.capturing_update s.frz _ fun _ => rfl
  have hyes : s.frz.active = true := h.closing hc
  have hnot : s.frz.capturing = false := h.not_capturing_of_cap (by rw [hc]; decide)
  constructor
  case frozen => rw [hcap]; exact h.frozen
  case older => rw [State.placeEnd_frz, Frz.tail_update]; exact h.older
  case linkIdle => rw [hact]; exact h.linkIdle
  case linkSending => rw [hcap]; exact h.linkSending
  case copying => rw [hcap, hnot]; simp
  case closing => exact fun _ => hact.trans hyes
  case awaiting => exact fun _ => rfl
  case slotsFree => rw [hact, hyes]; simp
  case endBuilt => exact fun _ _ _ => rfl
  case filling =>
    intro q hq hf
    rw [hcap]
    rcases List.mem_append.1 (show q ∈ s.lnk.slots ++ [_] from hq) with hq | hq
    · exact h.filling q hq hf
    · rw [List.mem_singleton.1 hq] at hf
      cases hf
  case imageClear => rw [hact, hyes]; simp

/-! ### The link controller -/

theorem Lnk.mem_of_startable {l : Lnk} {q : Slot} (h : l.startable = some q) : q ∈ l.slots := by
  unfold Lnk.startable at h
  split at h
  · exact List.mem_of_find?_eq_some (Option.filter_eq_some_iff.1 h).1
  · cases h

theorem Slot.markSent_frame (n : Nat) (q : Slot) : (q.markSent n).frame = q.frame := by
  unfold Slot.markSent; split <;> rfl

theorem Slot.markSent_filling {n : Nat} {q : Slot} (h : (q.markSent n).st = .filling) : q.st = .filling := by
  unfold Slot.markSent at h
  split at h
  · cases h
  · exact h

theorem Slot.rewind_frame (n : Nat) (q : Slot) : (q.rewind n).frame = q.frame := by
  unfold Slot.rewind; split <;> rfl

theorem Slot.rewind_filling {n : Nat} {q : Slot} (h : (q.rewind n).st = .filling) : q.st = .filling := by
  unfold Slot.rewind at h
  split at h
  · cases h
  · exact h

/-- END starts: the controller goes on from TAIL to AWAIT_COMMIT, since the copier has finished. -/
theorem State.PhasesKept.awaitCommit {s : State} (h : s.PhasesKept) (ha : s.frz.active = true) (hi : s.cap.st = .idle) :
    State.PhasesKept { s with lnk := { s.lnk with ctl := .awaitCommit } } := by
  have hnot : s.frz.capturing = false := h.not_capturing_of_cap (by rw [hi]; decide)
  exact { h with
    linkIdle := iff_of_false (by simp) (by simp [ha])
    linkSending := iff_of_false (by simp) (by simp [hnot])
    awaiting := fun _ => hi }

/-- R97: the start of a frame. -/
theorem State.PhasesKept.startFrame {s : State} (h : s.PhasesKept) (q : Slot) (hq : s.lnk.startable = some q) :
    (s.startFrame q).PhasesKept := by
  have hfit := h.fits (Lnk.mem_of_startable hq)
  have marked : ∀ {u : State}, u.PhasesKept → u.SamePhase (s.startFrame q) → u.lnk.slots = s.lnk.slots →
      (s.startFrame q).PhasesKept := fun hu e hs =>
    hu.mapSlots (Slot.markSent q.seq) (fun p => by rw [Slot.markSent_frame]; exact id) (fun _ => Slot.markSent_filling) e
      (by rw [hs]; rfl)
  cases he : q.frame.isEnd with
  | false =>
    refine marked h (.of_update rfl (fun r => ?_) ?_ rfl rfl) rfl
    · split <;> rfl
    · simp [State.startFrame, Lnk.start, he]
  | true =>
    refine marked (h.awaitCommit hfit.active (hfit.endBuilt he)) (.of_update rfl (fun r => ?_) ?_ rfl rfl) rfl
    · split <;> rfl
    · simp [State.startFrame, Lnk.start, he]

theorem State.PhasesKept.ackBelow {s : State} (h : s.PhasesKept) (n : Nat) :
    State.PhasesKept { s with lnk := s.lnk.ackBelow n } :=
  h.transfer ⟨rfl, rfl, rfl, rfl, rfl, rfl, rfl⟩ fun _ hp => h.fits (List.mem_filter.1 hp).1

/-- R110: a retransmission round, or the break where the retry limit would be exceeded. -/
theorem State.PhasesKept.startRound {s : State} (h : s.PhasesKept) (n : Nat) : (s.startRound n).PhasesKept := by
  unfold State.startRound
  split
  · exact h.breakEpoch _
  · exact h.mapSlots (Slot.rewind n) (fun p => by rw [Slot.rewind_frame]; exact id) (fun _ => Slot.rewind_filling)
      ⟨rfl, rfl, rfl, rfl, rfl, rfl, rfl⟩ rfl

/-! ### Every step -/

theorem State.PhasesKept.send {s : State} (h : s.PhasesKept) : s.sendToMemory.PhasesKept := by
  obtain ⟨q, n, o, e, -, -⟩ := s.sendToMemory_eq
  rw [e]
  exact h.congr

/-- R57, R73, R74, R114: no epoch is active after a reset. -/
theorem State.phasesKept_reset : State.reset.PhasesKept :=
  .of_ended (fun _ hr => by cases hr) (by decide) rfl rfl rfl rfl

theorem State.phasesKept_completionClosed : CompletionClosed State.PhasesKept where
  alert _ _ h := h.congr
  stats _ _ h := h.congr
  out _ _ h := h.congr
  retire _ _ _ _ _ h := h.congr
  send _ h := h.send
  dropRead _ _ h := h.congr
  dropWrite _ _ h := h.congr
  drainDone _ _ e ok _ h := h.drainDone e ok
  copierDone _ ok data h := h.copierDone ok data

theorem State.phasesKept_commandClosed : CommandClosed State.PhasesKept where
  mgmt _ _ _ _ _ _ h := h.congr
  alert _ _ h := h.congr
  stats _ _ h := h.congr
  resetting _ h := h.congr
  baseline _ h := h.congr
  slot _ _ h := h.congr
  staging _ _ _ h := h.congr
  table _ _ _ _ _ _ h := { h with imageClear := fun _ => rfl }
  freezePoint s _ hf h := h.freezePoint (s.canFreeze_iff.1 hf).2.1 _ _
  cancelSlot _ h := h.cancelSlot
  breakEpoch _ c h := h.breakEpoch c

/-- R144: the arbiter gives the grant to a requester that has work. -/
theorem State.hasWork_seek {s : State} (hc : s.configKept) (hg : s.grantPossible = true) :
    s.hasWork (Mp.seek s.hasWork arbiterLooks s.mp).pos = true := by
  obtain ⟨-, -, -, ⟨hl, hd, hp⟩, ⟨hl', hd', hp'⟩, -⟩ := hc
  exact (Mp.seek_finds s.hasWork s.mp (Weights.of_pos _ hl' hd' hp') (Weights.of_pos _ hl hd hp)
    (Bool.and_eq_true_iff.1 hg).2).1

theorem State.phasesKept_stepClosed : StepClosed fun s => s.configKept ∧ s.PhasesKept where
  writeCmd s code h :=
    ⟨State.configKept_stepClosed.writeCmd s code h.1, State.phasesKept_commandClosed.writeCmd s code h.2⟩
  mgmt s g h1 h2 h3 h4 h5 h6 h :=
    ⟨State.configKept_stepClosed.mgmt s g h1 h2 h3 h4 h5 h6 h.1, h.2.congr⟩
  alert _ _ h := ⟨h.1, h.2.congr⟩
  stats _ _ h := ⟨h.1, h.2.congr⟩
  kinds _ _ _ h := ⟨h.1, h.2.congr⟩
  stallLimit _ _ h := ⟨h.1, h.2.congr⟩
  epochLimit _ _ h := ⟨h.1, h.2.congr⟩
  hwm s v hw h := ⟨State.configKept_stepClosed.hwm s v hw h.1, h.2.congr⟩
  lwm s v a hw h := ⟨State.configKept_stepClosed.lwm s v a hw h.1, h.2.congr⟩
  policy _ _ h := ⟨h.1, h.2.congr⟩
  fault _ _ h := ⟨h.1, h.2.congr⟩
  staging _ _ _ h := ⟨h.1, h.2.congr⟩
  ackTmo s v hv h := ⟨State.configKept_stepClosed.ackTmo s v hv h.1, h.2.congr⟩
  retryLim s v h1 h15 h :=
    ⟨State.configKept_stepClosed.retryLim s v h1 h15 h.1, h.2.congr⟩
  pauseLim _ _ h := ⟨h.1, h.2.congr⟩
  weights s w hl hd hc h :=
    ⟨State.configKept_stepClosed.weights s w hl hd hc h.1, h.2.congr⟩
  breakEpoch s c h := ⟨State.configKept_stepClosed.breakEpoch s c h.1, h.2.breakEpoch c⟩
  stallExpire s h := ⟨State.configKept_stepClosed.stallExpire s h.1, h.2.stallExpire⟩
  ackExpire s h :=
    ⟨State.configKept_stepClosed.ackExpire s h.1,
      (h.2.congr (t := s.count .ackTimeouts)).startRound _⟩
  pending _ _ h := ⟨h.1, h.2.congr⟩
  rx _ _ h := ⟨h.1, h.2.congr⟩
  tickLen s h := ⟨State.configKept_stepClosed.tickLen s h.1, h.2.congr⟩
  out _ _ h := ⟨h.1, h.2.congr⟩
  powerOn _ _ _ _ := ⟨State.configKept_reset, State.phasesKept_reset.congr⟩
  finalStep _ _ _ := ⟨State.configKept_reset, State.phasesKept_reset.congr⟩
  portReset _ h := ⟨h.1, h.2.congr⟩
  lineSeenLow _ _ h := ⟨h.1, h.2.congr⟩
  freeze s src k hf h :=
    ⟨State.configKept_stepClosed.freeze s src k hf h.1, h.2.freezePoint (s.canFreeze_iff.1 hf).2.1 src k⟩
  evaluate s h := ⟨State.configKept_stepClosed.evaluate s h.1, h.2.evaluate⟩
  linkUp _ h := ⟨h.1, h.2.congr⟩
  lose _ h := ⟨h.1, h.2.congr⟩
  arriveRead _ _ _ h := ⟨h.1, h.2.congr⟩
  arriveWrite _ _ _ h := ⟨h.1, h.2.congr⟩
  popRead _ _ h := ⟨h.1, h.2.congr⟩
  popWrite _ _ _ h := ⟨h.1, h.2.congr⟩
  addRead _ _ _ _ h := ⟨h.1, h.2.congr⟩
  straight _ w _ _ _ h := ⟨h.1, h.2.takeStraight w⟩
  merge _ w _ _ _ h := ⟨h.1, h.2.takeMerge w⟩
  allocate _ w i _ _ _ h := ⟨h.1, h.2.takeAllocate w i⟩
  exhaust s w hl hs hh hr h := ⟨State.configKept_stepClosed.exhaust s w hl hs hh hr h.1, h.2.exhaust w⟩
  lineWaits _ _ _ h := ⟨h.1, h.2.congr⟩
  markerWaits _ _ _ _ _ _ _ h := ⟨h.1, h.2.congr⟩
  send s h := ⟨State.configKept_stepClosed.send s h.1, h.2.send⟩
  grant s hg h :=
    ⟨State.configKept_stepClosed.grant s hg h.1,
      (h.2.congr (t := { s with mp := (Mp.seek s.hasWork arbiterLooks s.mp).won })).grantTo _
        (State.hasWork_seek h.1 hg)⟩
  complete s e rest ok data hq hi h :=
    ⟨State.configKept_stepClosed.complete s e rest ok data hq hi h.1,
      State.phasesKept_completionClosed.complete s e rest ok data hq hi h.2⟩
  placeFill _ i _ hc _ h := ⟨h.1, h.2.placeFill i hc⟩
  placeEnd _ _ hc _ h := ⟨h.1, h.2.placeEnd hc⟩
  startFrame _ q hq h := ⟨h.1, h.2.startFrame q hq⟩
  lineBusy _ _ _ h := ⟨h.1, h.2.congr⟩
  acknowledge s n _ _ _ h := ⟨h.1, (h.2.ackBelow (n + 1)).congr⟩
  nakRound s n h1 h2 ha h := ⟨State.configKept_stepClosed.nakRound s n h1 h2 ha h.1, (h.2.ackBelow n).startRound n⟩
  setPause _ _ h := ⟨h.1, h.2.congr⟩
  commit s epoch ha hw h := ⟨State.configKept_stepClosed.commit s epoch ha hw h.1, h.2.commit epoch hw⟩
  rejected _ _ _ h := ⟨h.1, h.2.congr⟩
  ticks _ h := ⟨h.1, h.2.congr⟩

/-- Settles O7: the phases go together after each operation that a step is made of; the grant of the arbiter, which must go
to a requester that has work, is where the configuration is needed. -/
theorem everyStepKeepsThePhasesTogether : Obligations.EveryStepKeepsThePhasesTogether := by
  unfold Obligations.EveryStepKeepsThePhasesTogether
  exact fun s t hc hp he => (State.phasesKept_stepClosed.step s t ⟨hc, hp⟩ he).2

end Sys2Proof.Machine


/-! ## Resets -/

namespace Sys2Proof.Machine

/-- R174: the conditions of the final step, one by one. -/
theorem State.resetReady_iff (s : State) :
    s.resetReady = true ↔ s.resetting = true ∧ s.frz.st = .idle ∧ s.sp.rlane = [] ∧ s.sp.wlane = [] ∧ s.sp.reads = [] ∧
      s.sp.writes = [] ∧ s.sp.live = [] ∧ s.mp.queue = [] := by
  simp [State.resetReady, and_assoc]

theorem exec_controlledResetFinalStep (s : State) :
    exec .controlledResetFinalStep s = .next (if s.resetReady then s.finalStep else s) := rfl

theorem exec_controlledResetFinalStep_ready {s : State} (h : s.resetReady = true) :
    exec .controlledResetFinalStep s = .next s.finalStep := by
  rw [exec_controlledResetFinalStep, if_pos h]

/-- Settles O3. -/
theorem powerOnResetOfTheFreezeController : Obligations.PowerOnResetOfTheFreezeController := by
  unfold Obligations.PowerOnResetOfTheFreezeController
  intro s straps high
  refine ⟨_, rfl, ?_⟩
  and_intros <;> rfl

/-- Settles O4: power-on reset by its definition, the final step by whether the conditions of R174 hold. -/
theorem powerOnAndControlledResetEndStates : Obligations.PowerOnAndControlledResetEndStates := by
  unfold Obligations.PowerOnAndControlledResetEndStates
  refine ⟨fun s straps high => rfl, ?_, ?_⟩
  · intro s hr hi hrl hwl hrd hwr hl hq
    exact exec_controlledResetFinalStep_ready (s.resetReady_iff.2 ⟨hr, hi, hrl, hwl, hrd, hwr, hl, hq⟩)
  · intro s hn
    rw [exec_controlledResetFinalStep, if_neg (mt s.resetReady_iff.1 hn)]

/-- R29: the freeze controller at an S-port reset, by the source of the request in the slot. -/
theorem Frz.portReset_eq (z : Frz) :
    z.portReset = { z with slot := (match z.slot with | some ⟨.marker, _⟩ => none | q => q), stall := none } := by
  rcases h : z.slot with - | ⟨_ | _ | _, k⟩ <;> simp only [Frz.portReset, h] <;> rfl

/-- Settles O5, by what stands in the pending-freeze slot. -/
theorem sportResetClearsThePortOnly : Obligations.SportResetClearsThePortOnly := by
  unfold Obligations.SportResetClearsThePortOnly
  intro s
  have he : exec .sportReset s = .next { s with
      sp := s.sp.portReset s.resetting
      frz := s.frz.portReset
      out := s.out ++ [if s.resetting then .resetAck 0 0 else .resetAck 8 8] } := rfl
  rw [he, Frz.portReset_eq]
  rfl

/-! ### The state after reset (R27, R57, R73, R114, R138, R154) -/

theorem State.reset_windows {w : Window} (h : w ∈ State.reset.win.table) : w = Window.off :=
  List.eq_of_mem_replicate h

theorem State.tableKept_reset : State.reset.tableKept := by
  refine ⟨rfl, fun i w hw => ?_⟩
  have hoff : (State.reset.win.table.take i).filter (fun v => decide (v.kind ≠ .off)) = [] :=
    List.filter_eq_nil_iff.2 fun v hv => by rw [State.reset_windows (List.mem_of_mem_take hv)]; decide
  rw [hoff, State.reset_windows (List.mem_of_getElem? hw)]
  rfl

theorem State.windowsKept_reset : State.reset.windowsKept := by
  refine ⟨fun w hw => ?_, ?_, by decide⟩
  · rw [State.reset_windows hw]
    exact ⟨fun _ => ⟨rfl, rfl, rfl⟩, fun hn => absurd rfl hn, fun hi => by cases hi⟩
  · refine List.pairwise_of_forall_mem_list fun v hv w _ hn => ?_
    rw [State.reset_windows hv] at hn
    exact absurd rfl hn

theorem State.mapsKept_reset : State.reset.mapsKept := by
  intro m hm
  have hnil : m = [] := by
    rcases List.mem_cons.1 hm with h | h
    · exact h
    · exact List.mem_singleton.1 h
  rw [hnil]
  exact ⟨.nil, fun p hp => by cases hp⟩

theorem State.windowKept_reset : State.reset.WindowKept where
  atMost := by decide
  consecutive := rfl
  ackBelowTx h := by cases h
  txBelowSent h := by cases h
  sentHeld h := by cases h
  nextPlace h := absurd rfl h

theorem State.stallKept_reset : State.reset.StallKept where
  claims := rfl
  head h := absurd rfl h
  marker := iff_of_false nofun nofun
  freezeWaits := iff_of_false (by decide) nofun
  exhaustion := nofun

theorem State.refsKept_reset : State.reset.RefsKept where
  readNumbers := .nil
  writeNumbers := .nil
  reads := .nil
  writes := .nil
  drains := .nil

theorem State.capacityKept_reset : State.reset.CapacityKept where
  reads := by decide
  writes := by decide
  live := by decide
  memory := by decide
  issuedFirst := .nil
  sent _ _ he := by cases he
  drains := by decide
  held _ he := by cases he
  waits h := absurd rfl h
  frozen _ := rfl

/-- Settles O11, invariant by invariant. -/
theorem resetMeetsEveryInvariant : Obligations.ResetMeetsEveryInvariant := by
  unfold Obligations.ResetMeetsEveryInvariant
  exact ⟨by decide, by decide, State.configKept_reset, State.tableKept_reset, State.windowsKept_reset,
    State.mapsKept_reset, ⟨.nil, by decide, fun _ => rfl⟩, ⟨by decide, by decide, by decide⟩, State.phasesKept_reset,
    State.windowKept_reset, State.stallKept_reset, State.refsKept_reset, State.capacityKept_reset⟩

end Sys2Proof.Machine


/-! ## The freeze controller: freeze points, the pending-freeze slot, breaks and timers -/

namespace Sys2Proof.Machine

/-! ### The freeze point (R6, R77, R79) -/

/-- A frame of the plan is FILL. -/
def PlanFrame.isFill : PlanFrame → Bool
  | .fill _ => true
  | _ => false

/-- The window of a FILL frame of the plan. -/
def PlanFrame.fillWindow : PlanFrame → Option Nat
  | .fill i => some i
  | _ => none

/-- The windows of the FILL frames at the head of a part of the plan, at most `n` of them. -/
def leadingFills (n : Nat) (ps : List PlanFrame) : List Nat :=
  ((ps.takeWhile PlanFrame.isFill).take n).filterMap PlanFrame.fillWindow

@[simp] theorem leadingFills_zero (ps : List PlanFrame) : leadingFills 0 ps = [] := by simp [leadingFills]

@[simp] theorem leadingFills_nil (n : Nat) : leadingFills n [] = [] := by simp [leadingFills]

@[simp] theorem leadingFills_fill (n i : Nat) (ps : List PlanFrame) :
    leadingFills (n + 1) (.fill i :: ps) = i :: leadingFills n ps := by
  rw [leadingFills, List.takeWhile_cons_of_pos rfl]
  rfl

theorem leadingFills_of_not_fill (n : Nat) (p : PlanFrame) (ps : List PlanFrame) (h : p.isFill = false) :
    leadingFills n (p :: ps) = [] := by
  rw [leadingFills, List.takeWhile_cons_of_neg (by simp [h])]
  simp

/-- The slots that FILL frames of the given windows take when the copier stands at place `pos` (R77). -/
def fillSlots (table : List Window) (epoch : Word16) (pos : Nat) (windows : List Nat) : List Slot :=
  windows.mapIdx fun j i =>
    { st := .ready, seq := pos + j, issued := 0,
      frame := .fill epoch (pos + j) i (table.getD i Window.off).fill (table.getD i Window.off).size }

@[simp] theorem fillSlots_nil (table : List Window) (epoch : Word16) (pos : Nat) : fillSlots table epoch pos [] = [] := rfl

theorem fillSlots_cons (table : List Window) (epoch : Word16) (pos i : Nat) (windows : List Nat) :
    fillSlots table epoch pos (i :: windows) =
      { st := .ready, seq := pos, issued := 0,
        frame := .fill epoch pos i (table.getD i Window.off).fill (table.getD i Window.off).size } ::
        fillSlots table epoch (pos + 1) windows := by
  simp only [fillSlots, List.mapIdx_cons, Nat.add_zero, Nat.add_assoc, Nat.add_comm 1]

/-- The state once FILL frames of the given windows have taken slots. -/
def State.filled (s : State) (windows : List Nat) : State :=
  { s with
    cap := { s.cap with pos := s.cap.pos + windows.length, fillBuilt := s.cap.fillBuilt + windows.length }
    lnk := { s.lnk with slots := s.lnk.slots ++ fillSlots s.win.table s.lnk.curEpoch s.cap.pos windows } }

theorem State.filled_nil (s : State) : s.filled [] = s := by simp [State.filled]

theorem State.filled_cons (s : State) (i : Nat) (windows : List Nat) :
    s.filled (i :: windows) = (s.placeFill i).filled windows := by
  simp [State.filled, State.placeFill, Lnk.place, State.fillFrame, windowAt, fillSlots_cons, Nat.add_assoc, Nat.add_comm 1]

/-- The frame next in the plan is the head of what is left of the plan. -/
theorem Cap.next_eq_head? (c : Cap) : c.next = (c.plan.drop c.pos).head? := by simp [Cap.next]

/-- R77, R79: exactly the FILL frames next in the plan are placed, as many as there are FREE slots. -/
theorem State.placeFills_eq_filled (k n : Nat) (s : State) (hn : s.lnk.slots.length + n = 16) (hk : n ≤ k) :
    State.placeFills k s = s.filled (leadingFills n (s.cap.plan.drop s.cap.pos)) := by
  induction k generalizing n s with
  | zero =>
    obtain rfl : n = 0 := by omega
    rw [leadingFills_zero, s.filled_nil]
    rfl
  | succ k ih =>
    have hnext := s.cap.next_eq_head?
    cases hd : s.cap.plan.drop s.cap.pos with
    | nil =>
      rw [hd] at hnext
      simp [State.placeFills, hnext, s.filled_nil]
    | cons p ps =>
      rw [hd] at hnext
      cases n with
      | zero =>
        have hfree : s.lnk.slotFree = false := decide_eq_false (show ¬s.lnk.slots.length < 16 by omega)
        have hstay : State.placeFills (k + 1) s = s := by
          unfold State.placeFills
          simp only [hfree]
          split <;> rfl
        rw [hstay, leadingFills_zero, s.filled_nil]
      | succ n =>
        have hfree : s.lnk.slotFree = true := decide_eq_true (show s.lnk.slots.length < 16 by omega)
        cases p with
        | fill i =>
          have hrest : (s.placeFill i).cap.plan.drop (s.placeFill i).cap.pos = ps := by
            show s.cap.plan.drop (s.cap.pos + 1) = ps
            rw [← List.tail_drop, hd]
            rfl
          have hlen : (s.placeFill i).lnk.slots.length + n = 16 := by simp [Lnk.place]; omega
          rw [leadingFills_fill, s.filled_cons, ← hrest, ← ih n (s.placeFill i) hlen (by omega)]
          simp [State.placeFills, hnext, hfree]
        | _ =>
          rw [leadingFills_of_not_fill _ _ _ rfl, s.filled_nil]
          simp [State.placeFills, hnext]

/-- The state at a freeze point before its leading FILL frames (R6). -/
def State.epochOpened (s : State) (src : Source) (k : Kind) : State :=
  let performed := kindPerformed k s.frz.baseline
  let granules := granuleCount performed s.maps.coll s.win.table
  { s with
    frz := s.frz.beginEpoch src k
    maps := s.maps.swap
    cap := s.cap.begin (framePlan performed s.maps.coll s.win.table) granules s.sp.live.length
    lnk := s.lnk.begin s.frz.nextEpoch (.opening s.frz.nextEpoch performed (descriptorsFrom 0 s.win.table) granules) }

/-- R6, R77: OPEN has taken the first slot, so at most 15 FILL frames take slots at a freeze point. -/
theorem State.beginEpoch_eq_filled (s : State) (src : Source) (k : Kind) :
    s.beginEpoch src k =
      ((s.epochOpened src k).filled (leadingFills 15 ((s.epochOpened src k).cap.plan.drop 1))).raise .epochBegun :=
  congrArg (State.raise · .epochBegun)
    (State.placeFills_eq_filled Config.slotCount 15 (s.epochOpened src k) rfl (by decide))

/-- Settles O19. -/
theorem freezePointEffects : Obligations.FreezePointEffects := by
  unfold Obligations.FreezePointEffects
  intro s src k performed plan granules leading
  have hbuilt : (s.epochOpened src k).cap.fillBuilt + leading.length = leading.length := Nat.zero_add _
  rw [s.beginEpoch_eq_filled]
  show State.raise (State.filled (s.epochOpened src k) leading) _ = _
  rw [State.filled, hbuilt]
  rfl

end Sys2Proof.Machine


namespace Sys2Proof.Machine

/-! ### Epoch numbers (R5) -/

theorem State.beginEpoch_frz (s : State) (src : Source) (k : Kind) : (s.beginEpoch src k).frz = s.frz.beginEpoch src k := by
  rw [s.beginEpoch_eq_filled]
  rfl

theorem nextNumber_last : nextNumber 65535 = 1 := rfl

theorem toNat_nextNumber {n : Word16} (h : n ≠ 65535) : (nextNumber n).toNat = n.toNat + 1 := by
  rw [nextNumber, if_neg (show n ≠ 65535#16 from h)]
  bv_omega

theorem State.nextEpoch_endStallWith_takeStraight (s : State) :
    (s.endStallWith State.takeStraight).frz.nextEpoch = s.frz.nextEpoch := by
  unfold State.endStallWith
  split <;> rfl

theorem State.nextEpoch_breakNow (s : State) (c : BreakCause) : (s.breakNow c).frz.nextEpoch = s.frz.nextEpoch := by
  unfold State.breakNow
  split
  · unfold State.endExhaustion
    split
    · exact State.nextEpoch_endStallWith_takeStraight _
    · rfl
  · rfl

/-- Settles O20. -/
theorem epochNumbersRunFromOneAndSkipZero : Obligations.EpochNumbersRunFromOneAndSkipZero := by
  unfold Obligations.EpochNumbersRunFromOneAndSkipZero
  refine ⟨fun s src k => ?_, State.nextEpoch_breakNow, ?_, ?_, ?_⟩
  · rw [s.beginEpoch_frz]
    refine ⟨rfl, fun h => ?_, toNat_nextNumber, nextNumber_ne_zero _⟩
    show nextNumber s.frz.nextEpoch = 1
    rw [h, nextNumber_last]
  · intro s t straps high he
    obtain rfl := Host.Outcome.next.inj he
    rfl
  · intro s hr hi hrl hwl hrd hwr hl hq
    exact ⟨_, exec_controlledResetFinalStep_ready (s.resetReady_iff.2 ⟨hr, hi, hrl, hwl, hrd, hwr, hl, hq⟩), rfl⟩
  · intro s t he
    obtain rfl := Host.Outcome.next.inj he
    rfl

/-! ### Where a freeze is possible (R4) -/

theorem State.canFreeze_of_frozen {s : State} (h : s.frz.st = .frozen) : s.canFreeze = false := by
  simp [State.canFreeze, h]

/-! ### An edge of FREEZE_REQ (R10, R28) -/

theorem State.lineRequest_resetting {s : State} (h : s.resetting = true) : s.lineRequest = s.freezeRefused := by
  simp [State.lineRequest, h]

theorem State.lineRequest_possible {s : State} (hr : s.resetting = false) (hc : s.canFreeze = true) :
    s.lineRequest = s.freezePoint .line s.frz.lineKind := by simp [State.lineRequest, hr, hc]

theorem State.lineRequest_refused {s : State} (hc : s.canFreeze = false) (h : s.frz.st = .frozen ∨ s.frz.slot.isSome) :
    s.lineRequest = s.freezeRefused := by
  unfold State.lineRequest
  rw [hc, if_pos h]
  simp

theorem State.lineRequest_waits {s : State} (hr : s.resetting = false) (hc : s.canFreeze = false)
    (hf : s.frz.st ≠ .frozen) (hs : s.frz.slot = none) :
    s.lineRequest = { s with frz := { s.frz with slot := some { source := .line, kind := s.frz.lineKind } } } := by
  simp [State.lineRequest, hr, hc, hf, hs]

/-- Settles O22: a high sample after a low one is an edge, and R10's table gives its outcome. -/
theorem freezeReqEdgeOutcomes : Obligations.FreezeReqEdgeOutcomes := by
  unfold Obligations.FreezeReqEdgeOutcomes
  intro s
  refine ⟨fun h => congrArg _ (s.sampleLine_still_high h), fun h => ?_⟩
  intro u refused
  have edge : exec .freezeReqEdge s = .next u.lineRequest := congrArg _ (s.sampleLine_edge h)
  rw [edge]
  refine ⟨fun hr => ?_, fun hr hi ha hu => ?_, fun hf => ?_, fun hr hn hs => ?_, fun hr hn hf hs => ?_⟩
  · rw [State.lineRequest_resetting (s := u) hr]
    rfl
  · rw [State.lineRequest_possible (s := u) hr (u.canFreeze_iff.2 ⟨hi, ha, hu⟩)]
  · rw [State.lineRequest_refused (s := u) (State.canFreeze_of_frozen hf) (.inl hf)]
    rfl
  · rw [State.lineRequest_refused (s := u) (u.canFreeze_eq_false.2 hn) (.inr hs)]
    rfl
  · rw [State.lineRequest_waits (s := u) hr (u.canFreeze_eq_false.2 hn) hf hs]

/-! ### The evaluation of the slot (R4, R12) -/

theorem State.evaluate_empty {s : State} (h : s.frz.slot = none) : s.evaluate = s := by simp [State.evaluate, h]

theorem State.evaluate_impossible {s : State} (h : s.canFreeze = false) : s.evaluate = s := by
  unfold State.evaluate
  rw [h]
  split <;> rfl

theorem State.evaluate_possible {s : State} {q : FreezeReq} (hs : s.frz.slot = some q) (hc : s.canFreeze = true) :
    s.evaluate = s.takeEffect q := by simp [State.evaluate, hs, hc]

theorem State.endStallWith_cons {s : State} {w : WriteReq} {rest : List WriteReq} (h : s.sp.wlane = w :: rest)
    (take : State → WriteReq → State) : s.endStallWith take = take s w := by simp [State.endStallWith, h]

/-- Settles O23, by the source of the request in the slot. -/
theorem evaluationOfAWaitingRequest : Obligations.EvaluationOfAWaitingRequest := by
  unfold Obligations.EvaluationOfAWaitingRequest
  intro s
  refine ⟨State.evaluate_empty, fun hn => State.evaluate_impossible (s.canFreeze_eq_false.2 hn), ?_⟩
  intro hi ha hu k
  have hc : s.canFreeze = true := s.canFreeze_iff.2 ⟨hi, ha, hu⟩
  refine ⟨fun hs => ?_, fun hs => ?_, fun hs w rest hw => ?_⟩
  · exact State.evaluate_possible hs hc
  · exact State.evaluate_possible hs hc
  · rw [State.evaluate_possible hs hc]
    show (s.emptySlot.endStallWith State.takeStraight).freezePoint .marker k = _
    rw [State.endStallWith_cons (s := s.emptySlot) hw]
    rfl

/-! ### Leaving FROZEN: breaks and capture complete (R16, R20 to R22) -/

theorem State.leaveFrozen_eq (s : State) :
    s.leaveFrozen =
      { s with
        frz := { s.frz with st := if s.jrn.entries = [] then .idle else .draining }
        jrn := { s.jrn with
          entries := s.jrn.entries.map fun e => if e.st = .held then { e with st := .pending } else e } } := by
  simp only [State.leaveFrozen, Jrn.release, List.isEmpty_iff]

theorem State.endExhaustion_of_ne {s : State} (h : s.frz.stall ≠ some .exhaustion) : s.endExhaustion = s := by
  rw [State.endExhaustion, if_neg h]

theorem State.endExhaustion_stalled {s : State} {w : WriteReq} {rest : List WriteReq}
    (h : s.frz.stall = some .exhaustion) (hw : s.sp.wlane = w :: rest) : s.endExhaustion = s.takeStraight w := by
  rw [State.endExhaustion, if_pos h, State.endStallWith_cons hw]

/-- R16, R83: capture complete before a stall ends. -/
def State.captured (s : State) (r : EpochRecord) (older : List EpochRecord) : State :=
  { s with
    frz := { s.frz with
      st := if s.jrn.entries = [] then .idle else .draining
      history := { r with state := .sending, duration := min s.frz.epochTimer (2 ^ 32 - 1) } :: older }
    jrn := { s.jrn with entries := s.jrn.entries.map fun e => if e.st = .held then { e with st := .pending } else e }
    cap := { s.cap with st := .closing }
    lnk := { s.lnk with ctl := .tail }
    alert := s.alert.raise .captureDone }

theorem State.captureComplete_eq {s : State} {r : EpochRecord} {older : List EpochRecord}
    (h : s.frz.history = r :: older) : s.captureComplete = (s.captured r older).endExhaustion := by
  unfold State.captureComplete
  rw [State.leaveFrozen_eq, Frz.update_cons h]
  rfl

/-- Settles O25. -/
theorem captureCompleteEffects : Obligations.CaptureCompleteEffects := by
  unfold Obligations.CaptureCompleteEffects
  intro s r older hh _
  refine ⟨fun hn => ?_, fun hs w rest hw => ?_⟩
  · rw [State.captureComplete_eq hh, State.endExhaustion_of_ne (s := s.captured r older) hn]
    rfl
  · rw [State.captureComplete_eq hh, State.endExhaustion_stalled (s := s.captured r older) hs hw]
    rfl

/-- R20: the effects of every break, whatever the phase, with the freeze duration of the broken epoch given. -/
theorem State.breakCore_eq {s : State} {r : EpochRecord} {older : List EpochRecord} (c : BreakCause)
    (h : s.frz.history = r :: older) :
    s.breakCore c =
      { s with
        frz := { s.frz with
          history := { r with state := .broken, cause := some c,
                              duration := if r.state = .capturing then min s.frz.epochTimer (2 ^ 32 - 1)
                                else r.duration } :: older }
        maps := { coll := unionMarks s.maps.img s.maps.coll, img := [] }
        cap := if s.cap.st = .idle then s.cap
          else { s.cap with st := .idle, plan := [], pos := 0, fence := 0, stale := s.cap.reads }
        lnk := { s.lnk with
          ctl := .idle, slots := [], retry := 0, ackTimer := 0, contPause := 0, prevEpoch := r.number
          abandon := if s.lnk.up then some (r.number, c) else s.lnk.abandon }
        alert := s.alert.raise .epochBroken
        stats := s.stats.count .epochsBroken } := by
  unfold State.breakCore
  rw [Frz.update_cons h, Frz.epoch_cons h]
  simp only [Frz.capturing_cons h, decide_eq_true_eq]
  rfl

/-- Settles O24. -/
theorem breakEffects : Obligations.BreakEffects := by
  unfold Obligations.BreakEffects
  refine ⟨fun z => ⟨z.active_iff, z.capturing_iff⟩, fun e => ?_, fun s c h => ?_, fun s c h => ?_, ?_,
    fun p a b => mem_unionMarks p a b⟩
  · cases e <;> simp [EpochState.active]
  · rw [State.breakEpoch, if_neg (by simp [h])]
  · rw [State.breakEpoch, if_pos h]
  · intro s c r older hh _ frozen u
    by_cases hf : r.state = .capturing
    · have hu : (s.breakCore c).leaveFrozen = u := by
        rw [State.breakCore_eq c hh, State.leaveFrozen_eq]
        simp [u, frozen, hf]
      have hb : s.breakNow c = u.endExhaustion := by
        rw [State.breakNow, if_pos (by simp [Frz.capturing_cons hh, hf]), hu]
      refine ⟨fun hn => ?_, fun _ hs w rest hw => ?_⟩
      · rw [hb, State.endExhaustion_of_ne (s := u) fun he => hn ⟨by simp [frozen, hf], he⟩]
      · rw [hb, State.endExhaustion_stalled (s := u) hs hw]
    · have hb : s.breakNow c = u := by
        rw [State.breakNow, if_neg (by simp [Frz.capturing_cons hh, hf]), State.breakCore_eq c hh]
        simp [u, frozen, hf]
      exact ⟨fun _ => hb, fun he => absurd (of_decide_eq_true he) hf⟩

end Sys2Proof.Machine


namespace Sys2Proof.Machine

/-! ### Timers (R14, R15, R103 to R105, R109, R156) -/

theorem Frz.tick_eq (z : Frz) :
    z.tick = { z with
      stallTimer := if z.stall = none then z.stallTimer else z.stallTimer + 1
      epochTimer := if z.capturing then z.epochTimer + 1 else z.epochTimer } := by
  unfold Frz.tick
  cases z.stall <;> cases z.capturing <;> rfl

theorem Lnk.ackRuns_iff (l : Lnk) : l.ackRuns = true ↔ (∃ q ∈ l.slots, q.st = .sent) ∧ l.pauseTimer = 0 := by
  simp [Lnk.ackRuns]

theorem Lnk.tick_eq (l : Lnk) (active : Bool) :
    l.tick active = { l with
      ackTimer := if (∃ q ∈ l.slots, q.st = .sent) ∧ l.pauseTimer = 0 then l.ackTimer + 1 else l.ackTimer
      pauseTimer := l.pauseTimer - 1
      contPause := if l.pauseTimer ≤ 1 then 0 else if active then l.contPause + 1 else l.contPause } := by
  have hack : (l.ackTimer + if l.ackRuns then 1 else 0) =
      if (∃ q ∈ l.slots, q.st = .sent) ∧ l.pauseTimer = 0 then l.ackTimer + 1 else l.ackTimer := by
    simp only [l.ackRuns_iff]
    split <;> rfl
  unfold Lnk.tick
  rw [hack]
  cases active <;> rfl

theorem Receiver.tick_eq (r : Receiver) :
    r.tick = { r with timer := if r.phase = .hunt then r.timer else r.timer + 1 } := by
  unfold Receiver.tick
  split <;> rfl

/-- Settles O60: the timers advance, then FREEZE_REQ is sampled. -/
theorem oneTick : Obligations.OneTick := by
  unfold Obligations.OneTick
  intro s advanced
  have ha : s.advanceTimers = advanced := by
    unfold State.advanceTimers
    rw [Frz.tick_eq, Lnk.tick_eq, Receiver.tick_eq]
  have tick : ∀ high, exec (.tick high) s = .next (advanced.sampleLine high) := fun high =>
    congrArg (fun t => Host.Outcome.next (State.sampleLine t high)) ha
  refine ⟨?_, fun h => ?_, fun _ => tick true⟩
  · rw [tick, State.sampleLine_low]
  · rw [tick, advanced.sampleLine_still_high h]

/-! ### Expiries and the writes of limits (R12 to R15, R192) -/

theorem Frz.stallDue_iff (z : Frz) :
    z.stallDue = true ↔ z.stall ≠ none ∧ z.stallLimit ≠ 0 ∧ z.stallLimit.toNat ≤ z.stallTimer := by
  simp [Frz.stallDue, and_assoc, Option.isSome_iff_ne_none]

theorem Frz.epochDue_iff (z : Frz) :
    z.epochDue = true ↔ z.capturing = true ∧ z.epochLimit ≠ 0 ∧ 1000 * z.epochLimit.toNat ≤ z.epochTimer := by
  unfold Frz.epochDue
  rw [Bool.and_eq_true, Bool.and_eq_true, decide_eq_true_iff, decide_eq_true_iff, and_assoc]
  rfl

/-- R12, R14: the end of a marker stall by expiry: its write is taken as a plain write and the marker refused. -/
theorem State.stallExpire_marker {s : State} (h : s.frz.stall = some .marker) :
    s.stallExpire = (s.emptySlot.endStallWith State.takePlain).markerRefused := by simp [State.stallExpire, h]

theorem State.stallExpire_exhaustion {s : State} (h : s.frz.stall = some .exhaustion) :
    s.stallExpire = s.breakEpoch .stallLimit := by simp [State.stallExpire, h]

theorem exec_stallTimerExpiry (s : State) :
    exec .stallTimerExpiry s = .next (if s.frz.stallDue then s.stallExpire else s) := rfl

theorem exec_epochTimerExpiry (s : State) :
    exec .epochTimerExpiry s = .next (if s.frz.epochDue then s.breakEpoch .epochLimit else s) := rfl

/-- R14: a limit written is in force at once, and the stall may be due by it. -/
theorem exec_stallLimitWrite (s : State) (w : WriteLine) (v : Word16) (hw : w.good) (hs : s.hunting) :
    exec (.stallLimitWrite w v) s = .next ((s.accessed 0x022 .invalid).writeStallLimit v) :=
  congrArg _ (s.sendWrite_word w 0x022 v .stallLimit rfl hw hs)

/-- R15. -/
theorem exec_epochLimitWrite (s : State) (w : WriteLine) (v : Word16) (hw : w.good) (hs : s.hunting) :
    exec (.epochLimitWrite w v) s = .next ((s.accessed 0x023 .invalid).writeEpochLimit v) :=
  congrArg _ (s.sendWrite_word w 0x023 v .epochLimit rfl hw hs)

/-- R192. -/
theorem exec_frzCfgWrite (s : State) (w : WriteLine) (v : Word16) (hw : w.good) (hs : s.hunting) :
    exec (.frzCfgWrite w v) s = .next ((s.accessed 0x021 .invalid).writeFrzCfg v) :=
  congrArg _ (s.sendWrite_word w 0x021 v .frzCfg rfl hw hs)

theorem State.writeStallLimit_due {s : State} {v : Word16} (h : Frz.stallDue { s.frz with stallLimit := v } = true) :
    s.writeStallLimit v = State.stallExpire { s with frz := { s.frz with stallLimit := v } } := by
  unfold State.writeStallLimit
  exact if_pos h

theorem State.writeStallLimit_early {s : State} {v : Word16} (h : ¬Frz.stallDue { s.frz with stallLimit := v } = true) :
    s.writeStallLimit v = { s with frz := { s.frz with stallLimit := v } } := by
  unfold State.writeStallLimit
  exact if_neg h

theorem State.writeEpochLimit_due {s : State} {v : Word16} (h : Frz.epochDue { s.frz with epochLimit := v } = true) :
    s.writeEpochLimit v = State.breakEpoch { s with frz := { s.frz with epochLimit := v } } .epochLimit := by
  unfold State.writeEpochLimit
  exact if_pos h

theorem State.writeEpochLimit_early {s : State} {v : Word16} (h : ¬Frz.epochDue { s.frz with epochLimit := v } = true) :
    s.writeEpochLimit v = { s with frz := { s.frz with epochLimit := v } } := by
  unfold State.writeEpochLimit
  exact if_neg h

theorem kindOfField_eq_none {n : Nat} (h : n = 0 ∨ n = 3) : kindOfField n = none := by
  rcases h with rfl | rfl <;> rfl

theorem kindOfField_eq_some {n : Nat} {k : Kind} (h : n = (match k with | .full => 1 | .delta => 2)) :
    kindOfField n = some k := by
  cases k <;> subst h <;> rfl

/-- R192: a reserved value in either field discards the write. -/
theorem State.writeFrzCfg_discarded {s : State} {v : Word16}
    (h : v.toNat % 4 = 0 ∨ v.toNat % 4 = 3 ∨ v.toNat / 4 % 4 = 0 ∨ v.toNat / 4 % 4 = 3) : s.writeFrzCfg v = s := by
  have hn : kindOfField (v.toNat % 4) = none ∨ kindOfField (v.toNat / 4 % 4) = none := by
    rw [← or_assoc] at h
    exact h.imp kindOfField_eq_none kindOfField_eq_none
  unfold State.writeFrzCfg
  split
  · rename_i hl hm
    rw [hl, hm] at hn
    simp at hn
  · rfl

theorem State.writeFrzCfg_applied {s : State} {v : Word16} {k m : Kind} (hk : kindOfField (v.toNat % 4) = some k)
    (hm : kindOfField (v.toNat / 4 % 4) = some m) :
    s.writeFrzCfg v = { s with frz := { s.frz with lineKind := k, markerKind := m } } := by
  simp only [State.writeFrzCfg, hk, hm]

/-- Settles O26: an expiry, at its command or at the write of its limit, by whether the timer is due. -/
theorem stallAndEpochTimers : Obligations.StallAndEpochTimers := by
  unfold Obligations.StallAndEpochTimers
  intro stallDue epochDue markerEnd
  refine ⟨fun s => ⟨fun hn => ?_, fun hd hm => ?_, fun hd he => ?_, fun hn => ?_, fun hd => ?_⟩, ?_⟩
  · rw [exec_stallTimerExpiry, if_neg (mt s.frz.stallDue_iff.1 hn)]
  · rw [exec_stallTimerExpiry, if_pos (s.frz.stallDue_iff.2 hd), State.stallExpire_marker hm]
    rfl
  · rw [exec_stallTimerExpiry, if_pos (s.frz.stallDue_iff.2 hd), State.stallExpire_exhaustion he]
  · rw [exec_epochTimerExpiry, if_neg (mt s.frz.epochDue_iff.1 hn)]
  · rw [exec_epochTimerExpiry, if_pos (s.frz.epochDue_iff.2 hd)]
  · intro s w v hw hs a b t u
    rw [exec_stallLimitWrite s w v hw hs, exec_epochLimitWrite s w v hw hs, exec_frzCfgWrite s w v hw hs]
    refine ⟨fun hn => ?_, fun hd hm => ?_, fun hd he => ?_, fun hn => ?_, fun hd => ?_, fun hr => ?_, fun k m hk hm => ?_⟩
    · exact congrArg _ (State.writeStallLimit_early (mt t.frz.stallDue_iff.1 hn))
    · have hw := State.writeStallLimit_due (s := a) (t.frz.stallDue_iff.2 hd)
      exact congrArg _ (hw.trans (State.stallExpire_marker (s := t) hm))
    · have hw := State.writeStallLimit_due (s := a) (t.frz.stallDue_iff.2 hd)
      exact congrArg _ (hw.trans (State.stallExpire_exhaustion (s := t) he))
    · exact congrArg _ (State.writeEpochLimit_early (mt u.frz.epochDue_iff.1 hn))
    · exact congrArg _ (State.writeEpochLimit_due (u.frz.epochDue_iff.2 hd))
    · exact congrArg _ (State.writeFrzCfg_discarded hr)
    · exact congrArg _ (State.writeFrzCfg_applied (kindOfField_eq_some hk) (kindOfField_eq_some hm))

/-! ### A marker write (R11, R12, R28, R126) -/

theorem WriteReq.formatError_eq_false {w : WriteReq}
    (h : ¬(w.mask = 0 ∨ w.addr.toNat % 32 ≠ 0 ∨ w.data.length ≠ (List.range 32).countP w.mask.getLsbD)) :
    w.formatError = false := by
  refine Bool.eq_false_iff.2 fun hf => h ?_
  unfold WriteReq.formatError at hf
  rw [Bool.or_eq_true, Bool.or_eq_true, decide_eq_true_iff, decide_eq_true_iff, decide_eq_true_iff, or_assoc] at hf
  exact hf

/-- R123, R125, R126: a well-formed marker write at the head of its lane, with its pair free and no stall, waits for its
resources. -/
theorem exec_takeWrite_marker {s : State} {w : WriteReq} {rest : List WriteReq} (hl : s.sp.wlane = w :: rest)
    (hs : s.frz.stall = none) (hf : w.formatError = false) (hp : s.sp.pairHeld w.initiator w.tag = false)
    (hm : w.marker = true) : exec .takeWrite s = .next (if s.sp.writeRoom then s.markerWrite w else s) := by
  show execTakeWrite s = _
  simp [execTakeWrite, hl, hs, State.examineWrite, hf, hp, hm]

theorem State.markerWrite_resetting {s : State} (h : s.resetting = true) (w : WriteReq) :
    s.markerWrite w = s.markerRefused.plainWrite w := by simp [State.markerWrite, h]

theorem State.markerWrite_possible {s : State} (hr : s.resetting = false) (hc : s.canFreeze = true) (w : WriteReq) :
    s.markerWrite w = (s.takeStraight w).freezePoint .marker s.frz.markerKind := by simp [State.markerWrite, hr, hc]

theorem State.markerWrite_refused {s : State} (hc : s.canFreeze = false) (h : s.frz.st = .frozen ∨ s.frz.slot.isSome)
    (w : WriteReq) : s.markerWrite w = s.markerRefused.plainWrite w := by
  unfold State.markerWrite
  rw [hc, if_pos h]
  simp

theorem State.markerWrite_stalls {s : State} (hr : s.resetting = false) (hc : s.canFreeze = false)
    (hf : s.frz.st ≠ .frozen) (hs : s.frz.slot = none) (w : WriteReq) :
    s.markerWrite w =
      State.beginStall { s with frz := { s.frz with slot := some { source := .marker, kind := s.frz.markerKind } } }
        .marker w := by
  simp [State.markerWrite, hr, hc, hf, hs]

/-- Settles O30. -/
theorem markerWriteOutcomes : Obligations.MarkerWriteOutcomes := by
  unfold Obligations.MarkerWriteOutcomes
  intro s w rest hl hst hwf hp hm free possible refused
  rw [exec_takeWrite_marker hl hst (WriteReq.formatError_eq_false hwf) hp hm]
  refine ⟨fun hn => ?_, fun hfree => ?_⟩
  · rw [if_neg (mt s.sp.writeRoom_iff.1 hn)]
  · rw [if_pos (s.sp.writeRoom_iff.2 hfree)]
    refine ⟨fun hr => ?_, fun hr hc => ?_, fun hf => ?_, fun hr hn hs => ?_, fun hr hn hf hs => ?_⟩
    · rw [State.markerWrite_resetting hr]
      rfl
    · rw [State.markerWrite_possible hr (s.canFreeze_iff.2 hc)]
    · rw [State.markerWrite_refused (State.canFreeze_of_frozen hf) (.inl hf)]
      rfl
    · rw [State.markerWrite_refused (s.canFreeze_eq_false.2 hn) (.inr hs)]
      rfl
    · refine ⟨freshId (s.sp.writes.map WriteRec.id), fun q hq he => ?_, ?_⟩
      · exact freshId_not_mem (s.sp.writes.map WriteRec.id) (List.mem_map.2 ⟨q, hq, he⟩)
      · rw [State.markerWrite_stalls hr (s.canFreeze_eq_false.2 hn) hf hs]
        rfl

end Sys2Proof.Machine


/-! ## Commands written to CMD -/

namespace Sys2Proof.Machine

/-- R169: a WRITE row of CMD with the command interface free takes the command of its code. -/
theorem exec_cmdRow {c : Instr} {w : WriteLine} {v : Word16} (s : State) (h : writeRow c = some (w, 0x000, v))
    (hw : w.good) (hs : s.hunting) (hb : s.mgmt.busy = false) :
    exec c s = .next ((s.accessed 0 .invalid).takeCommand v.toNat) := by
  rw [exec_writeRow s h, s.sendWrite_cmd w v hw hs hb]

/-- R170: a command that completes in the event of its take. -/
theorem State.taken_completeCommand (s : State) (code : Nat) (r : CmdResult) :
    (s.taken code).completeCommand r = s.commanded code r := rfl

/-! ### FREEZE (R8) -/

theorem kindOfArg_eq_none {arg : Word16} (h1 : arg ≠ 1) (h2 : arg ≠ 2) : kindOfArg arg = none := by
  rw [kindOfArg, if_neg h1, if_neg h2]

theorem kindOfArg_eq_some {arg : Word16} {k : Kind} (h : arg = (match k with | .full => 1 | .delta => 2)) :
    kindOfArg arg = some k := by
  cases k <;> subst h <;> rfl

theorem State.doFreeze_badArgument {s : State} (h : kindOfArg s.mgmt.arg = none) :
    s.doFreeze = s.completeCommand .refusedArgument := by simp [State.doFreeze, h]

theorem State.doFreeze_possible {s : State} {k : Kind} (h : kindOfArg s.mgmt.arg = some k) (hc : s.canFreeze = true) :
    s.doFreeze = (s.freezePoint .mgmt k).completeCommand .ok := by simp [State.doFreeze, h, hc]

theorem State.doFreeze_refused {s : State} {k : Kind} (h : kindOfArg s.mgmt.arg = some k) (hc : s.canFreeze = false)
    (hf : s.frz.st = .frozen ∨ s.frz.slot.isSome = true) : s.doFreeze = s.completeCommand .refusedState := by
  simp only [State.doFreeze, h, hc, Bool.false_eq_true, if_false]
  by_cases hst : s.frz.st = .frozen
  · rw [if_pos hst]
  · rw [if_neg hst, if_pos (hf.resolve_left hst)]

theorem State.doFreeze_waits {s : State} {k : Kind} (h : kindOfArg s.mgmt.arg = some k) (hc : s.canFreeze = false)
    (hf : s.frz.st ≠ .frozen) (hs : s.frz.slot = none) :
    s.doFreeze = { s with frz := { s.frz with slot := some { source := .mgmt, kind := k } } } := by
  simp [State.doFreeze, h, hc, hf, hs]

/-- Settles O12: the rows of R8's table. -/
theorem freezeCommandOutcomes : Obligations.FreezeCommandOutcomes := by
  unfold Obligations.FreezeCommandOutcomes
  refine ⟨fun s r => rfl, fun s w hw hs hb => ?_⟩
  have he : exec (.freeze w) s = .next (s.taken 1).doFreeze := exec_cmdRow (c := .freeze w) (v := 1) s rfl hw hs hb
  rw [he]
  refine ⟨fun h1 h2 => ?_, fun k hk => ?_⟩
  · rw [State.doFreeze_badArgument (s := s.taken 1) (kindOfArg_eq_none h1 h2), s.taken_completeCommand]
  have harg : kindOfArg (s.taken 1).mgmt.arg = some k := kindOfArg_eq_some hk
  refine ⟨fun hi ha hu => ?_, fun hf => ?_, fun hn hq => ?_, fun hn hf hq => ?_⟩
  · rw [State.doFreeze_possible harg ((s.taken 1).canFreeze_iff.2 ⟨hi, ha, hu⟩)]
  · rw [State.doFreeze_refused harg (State.canFreeze_of_frozen hf) (.inl hf), s.taken_completeCommand]
  · rw [State.doFreeze_refused harg ((s.taken 1).canFreeze_eq_false.2 hn) (.inr hq), s.taken_completeCommand]
  · rw [State.doFreeze_waits harg ((s.taken 1).canFreeze_eq_false.2 hn) hf hq]
    rfl

/-! ### ABORT and RESET (R9, R23, R28, R173) -/

theorem State.cancelSlot_empty {s : State} (h : s.frz.slot = none) : s.cancelSlot = s := by
  simp [State.cancelSlot, h]

/-- The part as a command is taken over a waiting FREEZE, whose request has left the slot and whose completion has raised
CMD_DONE (R9). -/
def State.takenOver (s : State) (code : Nat) : State :=
  { s.taken code with frz := { s.frz with slot := none }, alert := s.alert.raise .cmdDone }

/-- R9, R169: a WRITE of ABORT or RESET to CMD over a waiting FREEZE. -/
theorem State.writeCmd_over {s : State} {code : Nat} (hb : s.mgmt.busy = true) (hc : s.mgmt.code = codeFreeze)
    (h : code = codeAbort ∨ code = codeReset) :
    s.writeCmd code = (s.emptySlot.completeCommand .cancelled).takeCommand code := by
  have hw : s.freezeWaits = true := by simp [State.freezeWaits, hb, hc]
  rw [State.writeCmd, if_neg (by simp [hb]), if_pos ⟨hw, h⟩]

theorem exec_cmdRow_over {c : Instr} {w : WriteLine} {v : Word16} (s : State) (h : writeRow c = some (w, 0x000, v))
    (hw : w.good) (hs : s.hunting) (hb : s.mgmt.busy = true) (hc : s.mgmt.code = 1)
    (hv : v.toNat = codeAbort ∨ v.toNat = codeReset) :
    exec c s = .next (((s.accessed 0 .invalid).emptySlot.completeCommand .cancelled).takeCommand v.toNat) := by
  rw [exec_writeRow s h, s.sendWrite_word w 0 v .cmd rfl hw hs]
  exact congrArg _ (State.writeCmd_over (s := s.accessed 0 .invalid) hb hc hv)

/-- Settles O14, by whether a FREEZE waits and, if not, by the source of the request in the slot. -/
theorem abortAndResetCommands : Obligations.AbortAndResetCommands := by
  unfold Obligations.AbortAndResetCommands
  intro s w hw hs
  constructor
  · intro hb cancelled
    have cancel : ∀ code, (s.taken code).cancelSlot = cancelled (s.taken code) := by
      intro code
      simp only [cancelled, State.cancelSlot, State.taken_frz]
      rcases s.frz.slot with - | ⟨_ | _ | _, k⟩ <;> rfl
    rw [← cancel, ← cancel]
    exact ⟨exec_cmdRow (c := .abort w) (v := 2) s rfl hw hs hb, exec_cmdRow (c := .reset w) (v := 8) s rfl hw hs hb⟩
  · intro hb hc cancelled
    have empty : ∀ code, (s.takenOver code).cancelSlot = cancelled code := fun code => State.cancelSlot_empty rfl
    rw [← empty, ← empty]
    exact ⟨exec_cmdRow_over (c := .abort w) (v := 2) s rfl hw hs hb hc (.inl rfl),
      exec_cmdRow_over (c := .reset w) (v := 8) s rfl hw hs hb hc (.inr rfl)⟩

/-! ### INVALIDATE_BASELINE, HISTORY_READ and unknown codes (R24, R169, R171) -/

/-- The fields of HIST_INFO in numbers (10.6). -/
theorem EpochRecord.info_eq (r : EpochRecord) :
    r.info = r.source.code + 4 * r.kindRequested.code + 16 * r.kindPerformed.code + 64 * r.state.code +
      512 * r.cause.elim 0 BreakCause.code + 8192 * flag r.digest.isSome := by
  unfold EpochRecord.info
  cases r.cause <;>
    simp only [fields, List.map_cons, List.map_nil, List.sum_cons, List.sum_nil, Option.elim_none, Option.elim_some] <;>
    ring

theorem State.doHistoryRead_badArgument {s : State} (h : 3 < s.mgmt.arg.toNat) :
    s.doHistoryRead = s.completeCommand .refusedArgument := by rw [State.doHistoryRead, if_pos h]

theorem State.doHistoryRead_some {s : State} {r : EpochRecord} (h : s.mgmt.arg.toNat ≤ 3)
    (hr : s.frz.history[s.mgmt.arg.toNat]? = some r) :
    s.doHistoryRead = State.completeCommand { s with mgmt := { s.mgmt with hist := r.staging } } .ok := by
  rw [State.doHistoryRead, if_neg (by omega), hr]

theorem State.doHistoryRead_none {s : State} (h : s.mgmt.arg.toNat ≤ 3)
    (hr : s.frz.history[s.mgmt.arg.toNat]? = none) :
    s.doHistoryRead = State.completeCommand { s with mgmt := { s.mgmt with hist := HistStaging.reset } } .ok := by
  rw [State.doHistoryRead, if_neg (by omega), hr]

/-- R169: a code outside 1 to 8 shows as 15. -/
theorem State.takeCommand_unknown (s : State) {code : Nat} (h : code = 0 ∨ 8 < code) :
    (s.accessed 0 .invalid).takeCommand code = s.commanded 15 .refusedArgument := by
  have hcode : Mgmt.take (s.accessed 0 .invalid).mgmt code = (s.taken 15).mgmt := by
    rw [Mgmt.take, if_neg (by omega)]
    rfl
  unfold State.takeCommand
  rw [hcode]
  simp only
  split
  iterate 8 omega
  rfl

/-- Settles O15. -/
theorem baselineHistoryAndUnknownCommands : Obligations.BaselineHistoryAndUnknownCommands := by
  unfold Obligations.BaselineHistoryAndUnknownCommands
  intro kind s w hw hs hb
  have he : exec (.historyRead w) s = .next (s.taken 6).doHistoryRead :=
    exec_cmdRow (c := .historyRead w) (v := 6) s rfl hw hs hb
  rw [he]
  refine ⟨exec_cmdRow (c := .invalidateBaseline w) (v := 3) s rfl hw hs hb, fun ha => ?_, fun r ha hr => ?_, fun ha hr => ?_, fun code hc => ?_⟩
  · rw [State.doHistoryRead_badArgument (s := s.taken 6) ha, s.taken_completeCommand]
  · rw [State.doHistoryRead_some (s := s.taken 6) ha hr, EpochRecord.staging, r.info_eq]
    cases r.cause with
    | none => rfl
    | some c => cases c <;> rfl
  · rw [State.doHistoryRead_none (s := s.taken 6) ha hr]
    rfl
  · rw [exec_cmdRow s rfl hw hs hb, s.takeCommand_unknown hc]

end Sys2Proof.Machine


/-! ## The write journal and the drain engine: exhaustion, drain completions, bytes, and the writes of registers -/

namespace Sys2Proof.Machine

/-! ### Whole WRITE frames of 16-bit registers (R159) -/

/-- R159: a WRITE row whose register is a 16-bit one writes it, with the access noted. -/
theorem exec_wordRow {c : Instr} {w : WriteLine} {n : BitVec 9} {v : Word16} (s : State) (r : Reg)
    (h : writeRow c = some (w, n, v)) (hr : regAt n.toNat = .word r) (hw : w.good) (hs : s.hunting) :
    exec c s = .next ((s.accessed n .invalid).writeReg r v) := by
  rw [exec_writeRow s h, s.sendWrite_word w n v r hr hw hs]

/-! ### Exhaustion of the journal (R42 to R44, R47) -/

theorem State.handling_eq_exhaustion {s : State} {w : WriteReq} {i : Nat} {d : Window}
    (hi : imageWindow s.win.table w.addr = some (i, d)) (hf : s.jrn.find w.addr = none) (hst : s.frz.st = .frozen)
    (hl : 2048 ≤ s.jrn.entries.length) : s.handling w = .exhaustion := by
  have hfull : ¬s.jrn.occupancy < Config.journalCapacity := Nat.not_lt.2 hl
  simp [State.handling, hi, hf, hst, hfull]

theorem State.plainWrite_exhaustion {s : State} {w : WriteReq} (h : s.handling w = .exhaustion) :
    s.plainWrite w = if s.sp.writeRoom then s.exhaust w else s := by simp only [State.plainWrite, h]

/-- R43. -/
theorem State.exhaust_break {s : State} (h : s.jrn.policy = .break_) (w : WriteReq) :
    s.exhaust w = (s.breakEpoch .journalFull).takeStraight w := by simp only [State.exhaust, h]

/-- R44. -/
theorem State.exhaust_hold {s : State} (h : s.jrn.policy = .hold) (w : WriteReq) :
    s.exhaust w = s.beginStall .exhaustion w := by simp only [State.exhaust, h]

/-- R126, R127, R129: the record that a stalled write claims has a number not in use. -/
theorem Sp.claim_eq (p : Sp) (w : WriteReq) :
    ∃ id, (∀ q ∈ p.writes, q.id ≠ id) ∧ p.claim w =
      { p with
        writes := p.writes ++
          [{ id := id, initiator := w.initiator, tag := w.tag, silent := false, claimed := true }] } :=
  ⟨freshId (p.writes.map WriteRec.id), fun q hq he => freshId_not_mem _ (List.mem_map.2 ⟨q, hq, he⟩), rfl⟩

theorem policyOf_eq_break (v : Word16) : policyOf v = .break_ ↔ v.getLsbD 0 = true := by
  unfold policyOf
  split <;> simp_all

theorem State.writeJrnCfg_breaks {s : State} {v : Word16}
    (h : s.jrn.policy = .hold ∧ v.getLsbD 0 = true ∧ s.frz.stall = some .exhaustion) :
    s.writeJrnCfg v = State.breakEpoch { s with jrn := { s.jrn with policy := policyOf v } } .journalFull := by
  rw [← policyOf_eq_break] at h
  exact if_pos h

theorem State.writeJrnCfg_sets {s : State} {v : Word16}
    (h : ¬(s.jrn.policy = .hold ∧ v.getLsbD 0 = true ∧ s.frz.stall = some .exhaustion)) :
    s.writeJrnCfg v = { s with jrn := { s.jrn with policy := policyOf v } } := by
  rw [← policyOf_eq_break] at h
  exact if_neg h

/-- Settles O31, by the resources of the write, the policy, and whether a write of JRN_CFG meets the stall. -/
theorem exhaustionOutcomes : Obligations.ExhaustionOutcomes := by
  unfold Obligations.ExhaustionOutcomes
  constructor
  · intro s w i d hi hf hst hl free
    rw [State.plainWrite_exhaustion (State.handling_eq_exhaustion hi hf hst hl)]
    refine ⟨fun hn => ?_, fun hfree hp => ?_, fun hfree hp => ?_⟩
    · rw [if_neg (mt s.sp.writeRoom_iff.1 hn)]
    · rw [if_pos (s.sp.writeRoom_iff.2 hfree), State.exhaust_break hp]
    · obtain ⟨id, hid, hc⟩ := s.sp.claim_eq w
      refine ⟨id, hid, ?_⟩
      rw [if_pos (s.sp.writeRoom_iff.2 hfree), State.exhaust_hold hp, State.beginStall, hc]
  · intro s w v hw hs t
    rw [exec_wordRow (c := .jrnCfgWrite w v) s .jrnCfg rfl rfl hw hs]
    exact ⟨fun hp hv hx => congrArg _ (State.writeJrnCfg_breaks (s := s.accessed 0x042 .invalid) ⟨hp, hv, hx⟩),
      fun hn => congrArg _ (State.writeJrnCfg_sets (s := s.accessed 0x042 .invalid) hn)⟩

/-! ### Bytes of blocks: masks, merges and captures (R35, R37, R120) -/

theorem getElem_overlay (mask : ByteMask) (new old : Block) (i : Fin 32) :
    (overlay mask new old)[i] = if mask.getLsbD i then new[i] else old[i] := by
  simp [overlay]

theorem getElem_masked (mask : ByteMask) (data : Block) (i : Fin 32) (h : mask.getLsbD i = true) :
    (masked mask data)[i] = data[i] := by
  unfold masked
  simp [h]

/-- The set position `i` has a place among the set positions. -/
theorem rank_lt_setCount {mask : ByteMask} {i : Fin 32} (h : mask.getLsbD i = true) : rank mask i < setCount mask := by
  have hs : rank mask (i + 1) = rank mask i + 1 := by simp [rank, List.range_succ, h]
  have hm : rank mask (i + 1) ≤ setCount mask := (List.range_sublist.2 i.isLt).countP_le
  omega

/-- R120: a byte of a write stands at its set position. -/
theorem getElem?_rank_block32 (w : WriteReq) (i : Fin 32) (hl : w.data.length = setCount w.mask)
    (h : w.mask.getLsbD i = true) : w.data[rank w.mask i]? = some w.block32[i] := by
  have hr : rank w.mask i < w.data.length := hl ▸ rank_lt_setCount h
  simp [WriteReq.block32, scatter, h, hr]

/-! ### Blocks and ranges of reads (R37, R119) -/

/-- Clearing the five low bits of an address. -/
theorem blockOf_eq_shift (a : Addr) : blockOf a = a >>> 5 <<< 5 := by
  have hm : ∀ i < 40, (~~~31#40).getLsbD i = !decide (i < 5) := by decide
  refine BitVec.eq_of_getLsbD_eq fun i hi => ?_
  rw [blockOf, BitVec.getLsbD_and, hm i hi, BitVec.getLsbD_shiftLeft, BitVec.getLsbD_ushiftRight]
  by_cases h : i < 5
  · simp [h]
  · simp [h, hi, Nat.add_sub_cancel' (Nat.not_lt.1 h)]

theorem toNat_blockOf (a : Addr) : (blockOf a).toNat = 32 * (a.toNat / 32) := by
  have ha := a.isLt
  rw [blockOf_eq_shift, BitVec.toNat_shiftLeft, BitVec.toNat_ushiftRight, Nat.shiftRight_eq_div_pow, Nat.shiftLeft_eq]
  omega

/-- R37, R119: the positions from an offset on, within a block. -/
theorem getLsbD_rangeMask {off len : Nat} (h : off + len ≤ 32) (i : Fin 32) :
    (rangeMask off len).getLsbD i = true ↔ off ≤ i.val ∧ i.val < off + len := by
  have hi := i.isLt
  rw [rangeMask, BitVec.getLsbD_shiftLeft, BitVec.getLsbD_ushiftRight, BitVec.getLsbD_allOnes, Bool.and_eq_true,
    Bool.and_eq_true, Bool.not_eq_true', decide_eq_true_iff, decide_eq_true_iff, decide_eq_false_iff_not]
  omega

/-! ### Captures and responses (R37, R148) -/

theorem length_blockBytes (b : Block) {off len : Nat} (h : off + len ≤ 32) : (blockBytes b off len).length = len := by
  simp [blockBytes]
  omega

theorem getElem?_blockBytes (b : Block) {off len j : Nat} (h : off + j < 32) (hj : j < len) :
    (blockBytes b off len)[j]? = some b[off + j] := by
  simp [blockBytes, hj, h]

/-- R37: position by position, a read captures what its block's entry holds within the range. -/
theorem State.getLsbD_captureMask (s : State) (r : ReadReq) (i : Nat) :
    (s.captureMask r).getLsbD i = true ↔
      r.range.getLsbD i = true ∧ (imageWindow s.win.table r.block).isSome = true ∧
        ∃ e, s.jrn.find r.block = some e ∧ e.mask.getLsbD i = true := by
  unfold State.captureMask
  cases imageWindow s.win.table r.block with
  | none => simp
  | some d =>
    cases s.jrn.find r.block with
    | none => simp
    | some e => simp [and_comm]

theorem State.getElem_captureData {s : State} {r : ReadReq} {e : JEntry} (hf : s.jrn.find r.block = some e) {i : Fin 32}
    (h : (s.captureMask r).getLsbD i = true) : (s.captureData r)[i] = e.data[i] := by
  rw [State.captureData]
  simp only [hf]
  exact getElem_masked _ _ i h

/-- Settles O33, position by position. -/
theorem bytesOfMergesCapturesAndResponses : Obligations.BytesOfMergesCapturesAndResponses := by
  unfold Obligations.BytesOfMergesCapturesAndResponses
  refine ⟨?_, fun r => ⟨toNat_blockOf r.addr, fun h i => getLsbD_rangeMask h i⟩, getElem_overlay,
    getElem?_rank_block32, ?_, fun r data h => length_blockBytes _ h, fun r data j h hj => ?_⟩
  · intro s a i d hk
    obtain ⟨-, hdisjoint, -⟩ := hk
    rw [imageWindow_eq_some s.win.table a i d hdisjoint, d.contains_iff]
    refine and_congr_right fun _ => and_congr_right fun hi => ?_
    simp [hi]
  · intro s r i h
    have hr : r.range.getLsbD i = true ↔ _ := getLsbD_rangeMask h i
    rw [← hr]
    constructor
    · intro hc
      obtain ⟨hp, hw, e, he, hm⟩ := (s.getLsbD_captureMask r i).1 hc
      exact ⟨hp, hw, e, he, hm, State.getElem_captureData he hc⟩
    · rintro ⟨hp, hw, e, he, hm, -⟩
      exact (s.getLsbD_captureMask r i).2 ⟨hp, hw, e, he, hm⟩
  · refine (getElem?_blockBytes (r.overlaid data) h hj).trans (congrArg some ?_)
    unfold ReadRec.overlaid
    cases r.capture with
    | none => rfl
    | some c => exact getElem_overlay c.mask c.data data ⟨_, h⟩

/-! ### Completions of drain writes (R17, R41, R51 to R54) -/

/-- R141, R147: the completion of a drain write, once its credit is back, is that of its block's entry. -/
theorem exec_completion_drain {s : State} {e : MemEntry} {rest : List MemEntry} {mask : ByteMask} {wd : Block}
    {j : JEntry} (hq : s.mp.queue = e :: rest) (hi : e.issued = true) (ha : e.access = .drain mask wd)
    (hj : s.jrn.find e.block = some j) (ok : Bool) (data : Block) :
    exec (.completion ok data) s =
      .next ((State.sendToMemory { s with mp := s.mp.retire rest }).drainDone j ok) := by
  have hu : (State.sendToMemory { s with mp := s.mp.retire rest }).jrn = s.jrn := by
    obtain ⟨q, n, o, he, -, -⟩ := State.sendToMemory_eq { s with mp := s.mp.retire rest }
    rw [he]
  show execCompletion ok data s = _
  simp only [execCompletion, hq, hi, if_true, State.handOver, ha, hu, hj]

theorem State.drainDone_again {e : JEntry} (h : e.redirty = true) (s : State) :
    s.drainDone e true = { s with jrn := s.jrn.update e.block JEntry.again } := by simp [State.drainDone, h]

theorem State.drainDone_removes {e : JEntry} (h : e.redirty = false) (s : State) :
    s.drainDone e true = State.endDrain { s with jrn := s.jrn.remove e.block } := by simp [State.drainDone, h]

theorem State.drainDone_failed {e : JEntry} (h : e.retry < 2) (s : State) :
    s.drainDone e false = { s with jrn := s.jrn.update e.block JEntry.failed } := by simp [State.drainDone, h]

theorem State.drainDone_loses {e : JEntry} (h : 2 ≤ e.retry) (s : State) :
    s.drainDone e false = (s.drainLoss e).endDrain := by simp [State.drainDone, Nat.not_lt.2 h]

/-- R17: the end of the drain, by what the journal holds. -/
theorem State.endDrain_eq (s : State) :
    s.endDrain =
      if s.frz.st = .draining ∧ s.jrn.entries = [] then
        State.evaluate { s with frz := { s.frz with st := .idle }, alert := s.alert.raise .drainDone }
      else s := by
  simp only [State.endDrain, List.isEmpty_iff]
  rfl

/-- Settles O37, by the status, the re-dirty flag and the retry count. -/
theorem drainCompletions : Obligations.DrainCompletions := by
  unfold Obligations.DrainCompletions
  intro s data e rest mask wd j hq hi ha hj u changed left removed ended
  have done : ∀ ok, exec (.completion ok data) s = .next (u.drainDone j ok) :=
    fun ok => exec_completion_drain hq hi ha hj ok data
  obtain ⟨q, n, o, (hu : u = { s with mp := { s.mp with queue := q, credits := n }, out := o }), -, -⟩ :=
    State.sendToMemory_eq { s with mp := s.mp.retire rest }
  rw [done, done]
  refine ⟨fun hr => ?_, fun hr => ?_, fun hr => ?_, fun hr => ?_⟩
  · rw [State.drainDone_again hr, hu]
    rfl
  · rw [State.drainDone_removes hr, State.endDrain_eq, hu]
    rfl
  · rw [State.drainDone_failed hr, hu]
    rfl
  · rw [State.drainDone_loses hr, State.endDrain_eq, hu]
    rfl

/-! ### Writes of registers (R40, R41, R54, R60, R146, R168, R191, R192) -/

/-- R60, 10.6: the kind and the fill byte in a value of WIN_STG_CTL. -/
theorem winStgCtl_fields (v : Word16) :
    v.extractLsb' 0 2 = BitVec.ofNat 2 v.toNat ∧ v.extractLsb' 8 8 = BitVec.ofNat 8 (v.toNat / 256) := by
  simp [BitVec.extractLsb', Nat.shiftRight_eq_div_pow]

/-- R146, 10.6. -/
theorem weightsOf_eq (v : Word16) :
    weightsOf v =
      { live := BitVec.ofNat 4 v.toNat, drain := BitVec.ofNat 4 (v.toNat / 16),
        copier := BitVec.ofNat 4 (v.toNat / 256) } := by
  simp [weightsOf, BitVec.extractLsb', Nat.shiftRight_eq_div_pow]

/-- The 16-bit registers that software can write (10.4). -/
def writableRegs : List Reg :=
  [.cmd, .cmdArg, .tickDiv, .frzCfg, .stallLimit, .epochLimit, .jrnCfg, .jrnHwm, .jrnLwm, .drnFaultInfo, .winStgSize,
    .winStgCtl, .lnkAckTmo, .lnkRetryLim, .lnkPauseLim, .arbCfg]

/-- R191: a register outside those that software can write keeps its value. -/
theorem State.writeReg_readOnly {r : Reg} (h : r ∉ writableRegs) (s : State) (v : Word16) : s.writeReg r v = s := by
  unfold State.writeReg
  split
  iterate 16 simp [writableRegs] at h
  rfl

/-- R191: WRITE_REGISTER of a read-only register or of a number the map does not list is an access and nothing more. -/
theorem exec_writeRegister_discarded (s : State) (w : WriteLine) (n : BitVec 9) (v : Word16) (hw : w.good) (hs : s.hunting)
    (h : regAt n.toNat = .unimplemented ∨ ∃ r : Reg, regAt n.toNat = .word r ∧ r ∉ writableRegs) :
    exec (.writeRegister w n v) s = .next (s.accessed n .invalid) := by
  rcases h with hn | ⟨r, hr, hro⟩
  · exact congrArg _ (s.sendWrite_unimplemented w n v hn hw hs)
  · rw [exec_wordRow s r rfl hr hw hs, State.writeReg_readOnly hro]

theorem State.writeHwm_eq (s : State) (v : Word16) :
    s.writeHwm v = { s with
      jrn := { s.jrn with
        hwm := if 1 ≤ s.jrn.lwm.toNat ∧ s.jrn.lwm.toNat < v.toNat ∧ v.toNat ≤ 2048 then v else s.jrn.hwm } } := by
  unfold State.writeHwm
  simp only [watermarksOk_iff]
  split <;> rfl

theorem State.writeLwm_applied {s : State} {v : Word16}
    (h : 1 ≤ v.toNat ∧ v.toNat < s.jrn.hwm.toNat ∧ s.jrn.hwm.toNat ≤ 2048) :
    s.writeLwm v = { s with
      jrn := { s.jrn with lwm := v, armed := s.jrn.armed || decide (s.jrn.entries.length ≤ v.toNat) } } :=
  if_pos ((watermarksOk_iff v s.jrn.hwm).2 h)

theorem State.writeLwm_discarded {s : State} {v : Word16}
    (h : ¬(1 ≤ v.toNat ∧ v.toNat < s.jrn.hwm.toNat ∧ s.jrn.hwm.toNat ≤ 2048)) : s.writeLwm v = s :=
  if_neg (mt (watermarksOk_iff v s.jrn.hwm).1 h)

theorem State.writeArbCfg_applied {s : State} {v : Word16} (h : (weightsOf v).positive) :
    s.writeArbCfg v = { s with mp := { s.mp with cfg := weightsOf v } } := if_pos h

theorem State.writeArbCfg_discarded {s : State} {v : Word16} (h : ¬(weightsOf v).positive) : s.writeArbCfg v = s :=
  if_neg h

/-- R144: the round goes from LIVE to DRAIN, to COPIER and to LIVE again. -/
theorem Requester.next_eq (r : Requester) :
    r.next = (match r with | .live => .drain | .drain => .copier | .copier => .live) := by cases r <;> rfl

/-- Settles O59, register by register. -/
theorem registerWrites : Obligations.RegisterWrites := by
  unfold Obligations.RegisterWrites
  refine ⟨fun s w v hw hs => ?_, ?_, fun s => rfl, fun m => ⟨rfl, rfl, m.pos.next_eq, rfl⟩⟩
  · rw [exec_wordRow (c := .writeRegister w 0x001 v) s .cmdArg rfl rfl hw hs,
      exec_wordRow (c := .writeRegister w 0x052 v) s .winStgSize rfl rfl hw hs,
      exec_wordRow (c := .writeRegister w 0x053 v) s .winStgCtl rfl rfl hw hs,
      exec_wordRow (c := .jrnHwmWrite w v) s .jrnHwm rfl rfl hw hs,
      exec_wordRow (c := .jrnLwmWrite w v) s .jrnLwm rfl rfl hw hs,
      exec_wordRow (c := .drnFaultInfoWrite w v) s .drnFaultInfo rfl rfl hw hs]
    refine ⟨rfl, rfl, ?_, fun n h => exec_writeRegister_discarded s w n v hw hs h, ?_, fun h => ?_, fun h => ?_, rfl⟩
    · obtain ⟨hk, hf⟩ := winStgCtl_fields v
      rw [State.writeReg, hk, hf]
      rfl
    · exact congrArg _ (State.writeHwm_eq _ v)
    · exact congrArg _ (State.writeLwm_applied (s := s.accessed 0x044 .invalid) h)
    · exact congrArg _ (State.writeLwm_discarded (s := s.accessed 0x044 .invalid) h)
  · intro s w v hw hs live drain copier
    have hv : weightsOf v = { live := live, drain := drain, copier := copier } := weightsOf_eq v
    rw [exec_wordRow (c := .arbCfgWrite w v) s .arbCfg rfl rfl hw hs,
      exec_wordRow (c := .tickDivWrite w v) s .tickDiv rfl rfl hw hs]
    refine ⟨fun hl hd hc => ?_, fun h => ?_, fun h => congrArg _ (if_neg h), fun h => congrArg _ (if_pos h)⟩
    · rw [← hv]
      exact congrArg _ (State.writeArbCfg_applied (by rw [hv]; exact ⟨hl, hd, hc⟩))
    · refine congrArg _ (State.writeArbCfg_discarded ?_)
      rw [hv]
      rintro ⟨hl, hd, hc⟩
      exact h.elim hl (Or.elim · hd hc)

end Sys2Proof.Machine

/-! ## Windows: WINDOW_WRITE and WINDOW_READ -/

namespace Sys2Proof.Machine

/-! ### The staged descriptor (R60, R62, R63) -/

theorem toNat_stagedBase (b : Word32) : (BitVec.ofNat 40 (256 * b.toNat)).toNat = 256 * b.toNat := by
  rw [BitVec.toNat_ofNat, Nat.mod_eq_of_lt]
  have := b.isLt
  omega

/-- R60: the staged base is a count of 256-byte units. -/
theorem stagedBase_eq (b : Word32) : (b.setWidth 40 <<< 8 : Addr) = BitVec.ofNat 40 (256 * b.toNat) := by
  refine BitVec.eq_of_toNat_eq ?_
  have := b.isLt
  rw [toNat_stagedBase, BitVec.toNat_shiftLeft, BitVec.toNat_setWidth, Nat.shiftLeft_eq]
  omega

/-- R60, R63: the descriptor that a WINDOW_WRITE stores for the staging registers, in numbers. -/
def Win.descriptor (v : Win) : Window :=
  if v.stgKind = 0 then { kind := .off, base := 0, size := 0, fill := 0, mapOffset := 0 }
  else
    { kind := if v.stgKind = 1 then .image else .fill
      base := BitVec.ofNat 40 (256 * v.stgBase.toNat)
      size := v.stgSize.toNat
      fill := if v.stgKind = 1 then 0 else v.stgFill
      mapOffset := 0 }

theorem kindField_cases : ∀ k : BitVec 2, k = 0 ∨ k = 1 ∨ k = 2 ∨ k = 3 := by decide

/-- R60, R62: a descriptor is staged unless the kind field is 3. -/
theorem Win.staged_eq_some_iff (v : Win) (d : Window) : v.staged = some d ↔ v.stgKind ≠ 3 ∧ d = v.descriptor := by
  unfold Win.staged Win.descriptor
  rw [stagedBase_eq]
  rcases kindField_cases v.stgKind with hk | hk | hk | hk <;> simp [hk, Window.off, eq_comm]

/-- R62: the checks on the staged base and size, which an OFF descriptor does not meet. -/
theorem Win.descriptor_placeOk_iff (v : Win) :
    (v.descriptor.enabled = true → v.descriptor.placeOk = true) ↔
      (v.stgKind ≠ 0 → 256 * v.stgBase.toNat % 4096 = 0 ∧ 1 ≤ v.stgSize.toNat ∧ v.stgSize.toNat ≤ 16384 ∧
        256 * v.stgBase.toNat + 4096 * v.stgSize.toNat ≤ 2 ^ 40) := by
  by_cases hk : v.stgKind = 0
  · simp [Win.descriptor, Window.enabled, hk]
  · have he : v.descriptor.enabled = true := by
      rw [Win.descriptor, if_neg hk, Window.enabled, decide_eq_true_iff]
      dsimp only
      split <;> simp
    have hb : v.descriptor.base.toNat = 256 * v.stgBase.toNat := by
      rw [Win.descriptor, if_neg hk, toNat_stagedBase]
    have hz : v.descriptor.size = v.stgSize.toNat := by rw [Win.descriptor, if_neg hk]
    simp only [he, hk, ne_eq, not_false_eq_true, true_imp_iff, Window.placeOk, Window.endByte, hb, hz, Bool.and_eq_true,
      decide_eq_true_eq, and_assoc]

/-! ### The table that results (R59, R61 to R63) -/

/-- R62: the disjointness that a WINDOW_WRITE checks, index against index. -/
theorem disjointTable_iff_getElem? (ws : List Window) :
    disjointTable ws = true ↔ ∀ (a b : Nat) (x y : Window), a < b → ws[a]? = some x → ws[b]? = some y →
      x.kind ≠ .off → y.kind ≠ .off →
        x.base.toNat + 4096 * x.size ≤ y.base.toNat ∨ y.base.toNat + 4096 * y.size ≤ x.base.toNat := by
  rw [disjointTable_iff, List.pairwise_iff_getElem]
  constructor
  · intro h a b x y hab hx hy
    obtain ⟨ha, rfl⟩ := List.getElem?_eq_some_iff.1 hx
    obtain ⟨hb, rfl⟩ := List.getElem?_eq_some_iff.1 hy
    exact h a b ha hb hab
  · exact fun h a b ha hb hab => h a b _ _ hab (List.getElem?_eq_getElem ha) (List.getElem?_eq_getElem hb)

/-- R62: the checks on the whole resulting table. -/
theorem tableOk_iff (ws : List Window) :
    tableOk ws = true ↔
      (∀ (a b : Nat) (x y : Window), a < b → ws[a]? = some x → ws[b]? = some y → x.kind ≠ .off → y.kind ≠ .off →
        x.base.toNat + 4096 * x.size ≤ y.base.toNat ∨ y.base.toNat + 4096 * y.size ≤ x.base.toNat) ∧
      imageSize ws ≤ 16384 ∧ ∀ x ∈ ws, x.kind = .image → x.mapOffset + x.size ≤ 16384 := by
  rw [← disjointTable_iff_getElem?, tableOk, Bool.and_eq_true, Bool.and_eq_true, decide_eq_true_iff, List.all_eq_true,
    and_assoc]
  refine and_congr_right fun _ => and_congr_right fun _ => forall_congr' fun x => imp_congr_right fun _ => ?_
  rw [Bool.or_eq_true, decide_eq_true_iff, decide_eq_true_iff, ne_eq, ← imp_iff_not_or]
  rfl

/-- R60 to R63: a WINDOW_WRITE passes exactly if the staged descriptor and the table that results pass their checks. -/
theorem Win.replaced_eq_some_iff (v : Win) (i : Nat) (t : List Window) :
    v.replaced i = some t ↔
      v.stgKind ≠ 3 ∧ t = recomputeOffsets (v.table.set i v.descriptor) ∧
        (v.descriptor.enabled = true → v.descriptor.placeOk = true) ∧ tableOk t = true := by
  constructor
  · intro h
    obtain ⟨d, hd, hrest⟩ := Win.replaced_eq h
    obtain ⟨hk, rfl⟩ := (v.staged_eq_some_iff d).1 hd
    exact ⟨hk, hrest⟩
  · rintro ⟨hk, rfl, hp, ht⟩
    have hd : v.staged = some v.descriptor := (v.staged_eq_some_iff _).2 ⟨hk, rfl⟩
    have hc : (!v.descriptor.enabled || v.descriptor.placeOk) = true := by
      rw [Bool.or_eq_true, Bool.not_eq_true', ← Bool.not_eq_true, ← imp_iff_not_or]
      exact hp
    simp [Win.replaced, hd, hc, ht]

/-! ### WINDOW_WRITE (R61, R63) -/

theorem State.doWindowWrite_badIndex {s : State} (h : 7 < s.mgmt.arg.toNat) :
    s.doWindowWrite = s.completeCommand .refusedArgument := by rw [State.doWindowWrite, if_pos h]

theorem State.doWindowWrite_badState {s : State} (h : s.mgmt.arg.toNat ≤ 7) (hs : s.frz.active = true ∨ s.frz.st ≠ .idle) :
    s.doWindowWrite = s.completeCommand .refusedState := by
  rw [State.doWindowWrite, if_neg (by omega), if_pos hs]

/-- R61, R63: with the index and the state in order, the checks of R62 decide. -/
theorem State.doWindowWrite_checked {s : State} (h : s.mgmt.arg.toNat ≤ 7) (ha : s.frz.active = false)
    (hi : s.frz.st = .idle) :
    s.doWindowWrite = (s.win.replaced s.mgmt.arg.toNat).elim (s.completeCommand .refusedArgument)
      fun table => (s.setTable table).completeCommand .ok := by
  rw [State.doWindowWrite, if_neg (by omega), if_neg (by simp [ha, hi])]
  cases s.win.replaced s.mgmt.arg.toNat <;> rfl

/-- Settles O16: the cases of the command in the order of its refusals, then the checks of R62 one by one. -/
theorem windowWriteCommandOutcomes : Obligations.WindowWriteCommandOutcomes := by
  unfold Obligations.WindowWriteCommandOutcomes
  refine ⟨fun s w hw hs hb => ?_, fun v i table _ _ => ?_⟩
  · have he : exec (.windowWrite w) s = .next (s.taken 4).doWindowWrite :=
      exec_cmdRow (c := .windowWrite w) (v := 4) s rfl hw hs hb
    rw [he]
    refine ⟨fun h => ?_, fun h hst => ?_, fun h ha hi => ?_⟩
    · rw [State.doWindowWrite_badIndex (s := s.taken 4) h, s.taken_completeCommand]
    · rw [State.doWindowWrite_badState (s := s.taken 4) h hst, s.taken_completeCommand]
    · rw [State.doWindowWrite_checked (s := s.taken 4) h ha hi]
      simp only [State.taken_win, State.taken_mgmt]
      refine ⟨fun hn => ?_, fun table ht => ?_⟩
      · rw [hn, Option.elim_none, s.taken_completeCommand]
      · rw [ht]
        rfl
  · intro d placed
    have hd : v.descriptor = d := rfl
    rw [v.replaced_eq_some_iff, v.descriptor_placeOk_iff, tableOk_iff, recomputeOffsets_eq, hd]
    rfl

/-! ### WINDOW_READ (R64) -/

theorem State.doWindowRead_badIndex {s : State} (h : 7 < s.mgmt.arg.toNat) :
    s.doWindowRead = s.completeCommand .refusedArgument := by rw [State.doWindowRead, if_pos h]

theorem State.doWindowRead_loads {s : State} {d : Window} (h : s.mgmt.arg.toNat ≤ 7)
    (hd : s.win.table[s.mgmt.arg.toNat]? = some d) :
    s.doWindowRead = State.completeCommand { s with win := s.win.load d } .ok := by
  have hat : windowAt s.win.table s.mgmt.arg.toNat = d := by rw [windowAt, List.getD_eq_getElem?_getD, hd, Option.getD_some]
  rw [State.doWindowRead, if_neg (by omega), hat]

/-- R64: a base is staged in units of 256 bytes. -/
theorem baseUnits_eq (a : Addr) : (a >>> 8).setWidth 32 = BitVec.ofNat 32 (a.toNat / 256) := by
  refine BitVec.eq_of_toNat_eq ?_
  rw [BitVec.toNat_setWidth, BitVec.toNat_ushiftRight, Nat.shiftRight_eq_div_pow, BitVec.toNat_ofNat]

/-- Settles O17. -/
theorem windowReadCopiesTheDescriptor : Obligations.WindowReadCopiesTheDescriptor := by
  unfold Obligations.WindowReadCopiesTheDescriptor
  intro s w hw hs hb
  have he : exec (.windowRead w) s = .next (s.taken 5).doWindowRead :=
    exec_cmdRow (c := .windowRead w) (v := 5) s rfl hw hs hb
  rw [he]
  refine ⟨fun h => ?_, fun d h hd => ?_⟩
  · rw [State.doWindowRead_badIndex (s := s.taken 5) h, s.taken_completeCommand]
  · rw [State.doWindowRead_loads (s := s.taken 5) h hd, Win.load, baseUnits_eq]
    cases d.kind <;> rfl

end Sys2Proof.Machine

/-! ## The image copier: the frame plan, the frames that need no read, and completions of reads -/

namespace Sys2Proof.Machine

/-! ### The frame plan (R75, R76) -/

theorem PlanFrame.isData_iff (p : PlanFrame) : p.isData = true ↔ ∃ w g c, p = .data w g c := by
  cases p <;> simp [PlanFrame.isData]

/-- R75: a FULL epoch selects every granule of an IMAGE window, a DELTA epoch the marked ones. -/
theorem selectedGranules_eq (kind : Kind) (img : List Nat) (w : Window) :
    selectedGranules kind img w =
      (List.range w.size).filter fun g => decide (kind = .full ∨ w.mapOffset + g ∈ img) := by
  cases kind <;> simp [selectedGranules]

/-- R75: the frames of the window with index `i`. -/
def windowPlan (kind : Kind) (img : List Nat) (i : Nat) (w : Window) : List PlanFrame :=
  match w.kind with
  | .off => []
  | .fill => if kind = .full then [.fill i] else []
  | .image => (selectedGranules kind img w).flatMap (granuleFrames i)

theorem windowFrames_cons (kind : Kind) (img : List Nat) (i : Nat) (w : Window) (ws : List Window) :
    windowFrames kind img i (w :: ws) = windowPlan kind img i w ++ windowFrames kind img (i + 1) ws := rfl

theorem windowFrames_eq (kind : Kind) (img : List Nat) (i : Nat) (ws : List Window) :
    windowFrames kind img i ws = (ws.mapIdx fun j w => windowPlan kind img (i + j) w).flatten := by
  induction ws generalizing i with
  | nil => rfl
  | cons w ws ih => simp [windowFrames_cons, ih, Nat.add_assoc, Nat.add_comm 1]

/-- R75: the number F of FILL frames in a plan, one for each FILL window of a FULL epoch. -/
def fillCount (kind : Kind) (table : List Window) : Nat :=
  if kind = .full then table.countP fun w => decide (w.kind = .fill) else 0

theorem fillCount_le (kind : Kind) (table : List Window) : fillCount kind table ≤ table.length := by
  unfold fillCount
  split
  · exact List.countP_le_length
  · exact Nat.zero_le _

theorem fillCount_cons (kind : Kind) (w : Window) (ws : List Window) :
    fillCount kind (w :: ws) = (if kind = .full ∧ w.kind = .fill then 1 else 0) + fillCount kind ws := by
  cases kind <;> simp [fillCount, List.countP_cons, Nat.add_comm]

theorem granuleCount_cons (kind : Kind) (img : List Nat) (w : Window) (ws : List Window) :
    granuleCount kind img (w :: ws) =
      (if w.kind = .image then (selectedGranules kind img w).length else 0) + granuleCount kind img ws := by
  by_cases h : w.kind = .image <;> simp [granuleCount, h]

theorem countP_isData_granuleFrames (i g : Nat) : (granuleFrames i g).countP PlanFrame.isData = 16 := rfl

theorem countP_isData_windowPlan (kind : Kind) (img : List Nat) (i : Nat) (w : Window) :
    (windowPlan kind img i w).countP PlanFrame.isData =
      16 * if w.kind = .image then (selectedGranules kind img w).length else 0 := by
  unfold windowPlan
  cases w.kind with
  | off => rfl
  | fill => cases kind <;> rfl
  | image => simp [List.countP_flatMap, Function.comp_def, countP_isData_granuleFrames, Nat.mul_comm]

theorem length_windowPlan (kind : Kind) (img : List Nat) (i : Nat) (w : Window) :
    (windowPlan kind img i w).length =
      (if kind = .full ∧ w.kind = .fill then 1 else 0) + (windowPlan kind img i w).countP PlanFrame.isData := by
  rw [countP_isData_windowPlan]
  unfold windowPlan
  cases w.kind with
  | off => simp
  | fill => cases kind <;> simp
  | image => simp [List.length_flatMap, granuleFrames, Nat.mul_comm]

theorem countP_isData_windowFrames (kind : Kind) (img : List Nat) (i : Nat) (ws : List Window) :
    (windowFrames kind img i ws).countP PlanFrame.isData = 16 * granuleCount kind img ws := by
  induction ws generalizing i with
  | nil => rfl
  | cons w ws ih =>
    rw [windowFrames_cons, List.countP_append, ih, countP_isData_windowPlan, granuleCount_cons, Nat.mul_add]

theorem length_windowFrames (kind : Kind) (img : List Nat) (i : Nat) (ws : List Window) :
    (windowFrames kind img i ws).length = fillCount kind ws + 16 * granuleCount kind img ws := by
  induction ws generalizing i with
  | nil => cases kind <;> rfl
  | cons w ws ih =>
    rw [windowFrames_cons, List.length_append, ih, length_windowPlan, countP_isData_windowPlan, fillCount_cons,
      granuleCount_cons]
    omega

theorem countP_isData_framePlan (kind : Kind) (img : List Nat) (table : List Window) :
    (framePlan kind img table).countP PlanFrame.isData = 16 * granuleCount kind img table := by
  rw [← countP_isData_windowFrames kind img 0]
  simp [framePlan, PlanFrame.isData]

theorem length_framePlan (kind : Kind) (img : List Nat) (table : List Window) :
    (framePlan kind img table).length = 1 + fillCount kind table + 16 * granuleCount kind img table + 1 := by
  simp only [framePlan, List.length_cons, List.length_append, length_windowFrames, List.length_nil]
  omega

theorem granuleCount_full (img : List Nat) (table : List Window) :
    granuleCount .full img table = ((table.filter fun w => decide (w.kind = .image)).map Window.size).sum := by
  simp [granuleCount, selectedGranules]

/-! ### The granules of a DELTA epoch (R59, R67, R69) -/

/-- The map positions of the granules that a DELTA epoch selects in a window. -/
def markedPositions (img : List Nat) (w : Window) : List Nat :=
  ((List.range w.size).filter fun g => decide (w.mapOffset + g ∈ img)).map fun g => w.mapOffset + g

theorem mem_markedPositions (img : List Nat) (w : Window) (p : Nat) :
    p ∈ markedPositions img w ↔ p ∈ img ∧ w.mapOffset ≤ p ∧ p < w.mapOffset + w.size := by
  simp only [markedPositions, List.mem_map, List.mem_filter, List.mem_range, decide_eq_true_eq]
  constructor
  · rintro ⟨g, ⟨hg, hm⟩, rfl⟩
    exact ⟨hm, by omega, by omega⟩
  · rintro ⟨hm, hl, hu⟩
    have hp : w.mapOffset + (p - w.mapOffset) = p := by omega
    exact ⟨p - w.mapOffset, ⟨by omega, by rwa [hp]⟩, hp⟩

theorem pairwise_markedPositions (img : List Nat) (w : Window) : (markedPositions img w).Pairwise (· < ·) :=
  List.Pairwise.map _ (fun _ _ h => Nat.add_lt_add_left h _) (List.Pairwise.filter _ List.pairwise_lt_range)

/-- R59: the positions of a window end before those of every window behind it begin. -/
theorem State.tableKept.offsets_ascend {s : State} (h : s.tableKept) :
    s.win.table.Pairwise fun v w => v.kind ≠ .off → v.mapOffset + v.size ≤ w.mapOffset := by
  obtain ⟨-, hoff⟩ := h
  rw [List.pairwise_iff_getElem]
  intro i j hi hj hij hv
  rw [hoff i _ (List.getElem?_eq_getElem hi), hoff j _ (List.getElem?_eq_getElem hj)]
  have below : (s.win.table.take (i + 1)).Sublist (s.win.table.take j) := List.take_sublist_take_left hij
  have sums := ((below.filter fun v => decide (v.kind ≠ .off)).map Window.size).sum_le_sum fun _ _ => Nat.zero_le _
  rw [List.take_succ_eq_append_getElem hi, List.filter_append, List.map_append, List.sum_append] at sums
  simpa [hv] using sums

/-- R69: with the table and the maps well kept, a DELTA epoch selects the marks of the map, in their order. -/
theorem flatMap_markedPositions {s : State} (ht : s.tableKept) (hm : s.mapsKept) :
    (s.win.table.filter fun w => decide (w.kind = .image)).flatMap (markedPositions s.maps.coll) = s.maps.coll := by
  obtain ⟨ascending, inWindow⟩ := hm s.maps.coll List.mem_cons_self
  refine List.Pairwise.eq_of_mem_iff (List.pairwise_flatMap.2 ⟨fun w _ => pairwise_markedPositions _ w, ?_⟩) ascending
    fun p => ?_
  · refine (List.pairwise_filter.2 (ht.offsets_ascend.imp fun {v w} h hv _ => ?_))
    intro p hp q hq
    obtain ⟨-, -, hp⟩ := (mem_markedPositions _ _ _).1 hp
    obtain ⟨-, hq, -⟩ := (mem_markedPositions _ _ _).1 hq
    have := h (by simp_all)
    omega
  · simp only [List.mem_flatMap, List.mem_filter, decide_eq_true_eq, mem_markedPositions]
    constructor
    · rintro ⟨w, -, hp, -⟩
      exact hp
    · intro hp
      obtain ⟨w, hw, hk, hl, hu⟩ := inWindow p hp
      exact ⟨w, ⟨hw, hk⟩, hp, hl, hu⟩

theorem granuleCount_delta (img : List Nat) (table : List Window) :
    granuleCount .delta img table =
      ((table.filter fun w => decide (w.kind = .image)).flatMap (markedPositions img)).length := by
  simp [granuleCount, List.length_flatMap, markedPositions, selectedGranules_eq]

/-- Settles O40: the plan window by window, its counts by induction over the table, and a DELTA epoch's marks as the one
ascending list with the map's members. -/
theorem framePlanContents : Obligations.FramePlanContents := by
  unfold Obligations.FramePlanContents
  refine ⟨PlanFrame.isData_iff, ?_, fun s ht hm => ?_⟩
  · intro kind img table plan fills
    refine ⟨?_, length_framePlan kind img table, countP_isData_framePlan kind img table, ?_⟩
    · show framePlan kind img table = _
      simp only [framePlan, windowFrames_eq, windowPlan, selectedGranules_eq, Nat.zero_add]
      rfl
    · rintro rfl
      exact granuleCount_full img table
  · have marks := flatMap_markedPositions ht hm
    exact ⟨marks, by rw [granuleCount_delta, marks]⟩

/-! ### A freeze point with nothing to capture (R83) -/

theorem isFill_or_isData_of_mem_windowPlan {kind : Kind} {img : List Nat} {i : Nat} {w : Window} {p : PlanFrame}
    (h : p ∈ windowPlan kind img i w) : p.isFill = true ∨ p.isData = true := by
  unfold windowPlan at h
  cases hk : w.kind with
  | off => simp [hk] at h
  | fill =>
    obtain ⟨-, rfl⟩ : kind = .full ∧ p = .fill i := by simpa [hk] using h
    exact .inl rfl
  | image =>
    obtain ⟨g, -, c, -, rfl⟩ : ∃ g ∈ selectedGranules kind img w, ∃ c < 16, PlanFrame.data i g c = p := by
      simpa [hk, granuleFrames] using h
    exact .inr rfl

/-- R75: between OPEN and END every frame is FILL or DATA. -/
theorem isFill_or_isData_of_mem_windowFrames {kind : Kind} {img : List Nat} {i : Nat} {ws : List Window} {p : PlanFrame}
    (h : p ∈ windowFrames kind img i ws) : p.isFill = true ∨ p.isData = true := by
  rw [windowFrames_eq] at h
  obtain ⟨fs, hfs, hp⟩ := List.mem_flatten.1 h
  obtain ⟨j, hj, rfl⟩ := List.mem_mapIdx.1 hfs
  exact isFill_or_isData_of_mem_windowPlan hp

/-- FILL frames ahead of END all take slots, as far as there is room for them. -/
theorem length_leadingFills_closing {fs : List PlanFrame} {n : Nat} (hf : ∀ p ∈ fs, p.isFill = true)
    (hn : fs.length ≤ n) :
    (leadingFills n (fs ++ [.closing])).length = fs.length := by
  induction fs generalizing n with
  | nil => exact congrArg List.length (leadingFills_of_not_fill n .closing [] rfl)
  | cons p ps ih =>
    obtain ⟨hp, hps⟩ := List.forall_mem_cons.1 hf
    cases p with
    | fill i =>
      obtain ⟨m, rfl⟩ : ∃ m, n = m + 1 := ⟨n - 1, by simp at hn; omega⟩
      rw [List.cons_append, leadingFills_fill, List.length_cons, List.length_cons, ih hps (by simpa using hn)]
    | _ => cases hp

/-- R75, R77: with no DATA frame in the plan and room for a FILL frame of each window, all frames but OPEN and END are placed
as leading FILL frames. -/
theorem length_leadingFills_framePlan {kind : Kind} {img : List Nat} {table : List Window} {n : Nat}
    (hd : (framePlan kind img table).any PlanFrame.isData = false) (hn : table.length ≤ n) :
    (leadingFills n ((framePlan kind img table).drop 1)).length + 2 = (framePlan kind img table).length := by
  have noData : ∀ p ∈ windowFrames kind img 0 table, ¬p.isData = true := fun p hp =>
    List.any_eq_false.1 hd p (by simp [framePlan, hp])
  have fills : ∀ p ∈ windowFrames kind img 0 table, p.isFill = true := fun p hp =>
    (isFill_or_isData_of_mem_windowFrames hp).resolve_right (noData p hp)
  have none : (windowFrames kind img 0 table).countP PlanFrame.isData = 0 := List.countP_eq_zero.2 noData
  have room : (windowFrames kind img 0 table).length ≤ n := by
    rw [countP_isData_windowFrames] at none
    rw [length_windowFrames, none]
    exact (fillCount_le kind table).trans hn
  show (leadingFills n (windowFrames kind img 0 table ++ [.closing])).length + 2 = _
  rw [length_leadingFills_closing fills room]
  simp [framePlan]

theorem State.length_slots_filled (s : State) (windows : List Nat) :
    (s.filled windows).lnk.slots.length = s.lnk.slots.length + windows.length := by
  simp [State.filled, fillSlots]

theorem State.beginEpoch_plan (s : State) (src : Source) (k : Kind) :
    (s.beginEpoch src k).cap.plan = framePlan (kindPerformed k s.frz.baseline) s.maps.coll s.win.table := by
  rw [s.beginEpoch_eq_filled]
  rfl

/-- R77, R83: where a freeze point finds no DATA frame to send, only END is left without a slot. -/
theorem State.length_slots_beginEpoch {s : State} {src : Source} {k : Kind}
    (hd : (s.beginEpoch src k).cap.plan.any PlanFrame.isData = false) (ht : s.win.table.length ≤ 15) :
    (s.beginEpoch src k).lnk.slots.length + 1 = (s.beginEpoch src k).cap.plan.length := by
  rw [State.beginEpoch_plan] at hd ⊢
  have placed := length_leadingFills_framePlan hd ht
  have slots : (s.beginEpoch src k).lnk.slots.length =
      1 + (leadingFills 15 ((s.epochOpened src k).cap.plan.drop 1)).length := by
    rw [s.beginEpoch_eq_filled]
    exact State.length_slots_filled _ _
  rw [slots, ← placed, Nat.add_comm 1]
  rfl

theorem State.beginEpoch_history (s : State) (src : Source) (k : Kind) :
    (s.beginEpoch src k).frz.history =
      newRecord s.frz.nextEpoch src k (kindPerformed k s.frz.baseline) :: s.frz.history.take 3 := by
  rw [State.beginEpoch_frz]
  rfl

/-- Settles O21, by whether the plan holds a DATA frame. -/
theorem freezePointWithNothingToCapture : Obligations.FreezePointWithNothingToCapture := by
  unfold Obligations.FreezePointWithNothingToCapture
  intro s src k t
  refine ⟨fun hd => if_pos hd, fun hd ht hj hs => ?_⟩
  have hc : t = (s.beginEpoch src k).captureComplete := if_neg (by simp [hd])
  have hslots := State.length_slots_beginEpoch hd (by omega)
  have hstall : (s.beginEpoch src k).frz.stall ≠ some .exhaustion := by rwa [State.beginEpoch_frz]
  refine ⟨hc, ?_⟩
  rw [hc, State.captureComplete_eq (s.beginEpoch_history src k),
    State.endExhaustion_of_ne (s := (s.beginEpoch src k).captured _ _) hstall]
  rw [s.beginEpoch_eq_filled] at hslots ⊢
  exact ⟨if_pos hj, rfl, rfl, rfl, hslots, rfl, congrArg _ hj, rfl, rfl, rfl⟩

/-! ### FILL frames and END (R77, R84, R85) -/

theorem exec_placeFillFrame_reached {s : State} {i : Nat} (hn : s.cap.plan[s.cap.pos]? = some (.fill i)) :
    exec .placeFillFrame s = .next (if s.cap.st ≠ .idle ∧ s.lnk.slots.length < 16 then s.placeFill i else s) := by
  have hnext : s.cap.next = some (.fill i) := hn
  show execPlaceFillFrame s = _
  simp only [execPlaceFillFrame, hnext, Lnk.slotFree, decide_eq_true_eq]
  rfl

theorem exec_placeFillFrame_not_reached {s : State} (hn : ¬∃ i, s.cap.plan[s.cap.pos]? = some (.fill i)) :
    exec .placeFillFrame s = .next s := by
  show execPlaceFillFrame s = _
  unfold execPlaceFillFrame
  split
  next i hi => exact absurd ⟨i, hi⟩ hn
  next => rfl

theorem exec_buildEnd_reached {s : State} (hn : s.cap.plan[s.cap.pos]? = some .closing) :
    exec .buildEnd s = .next (if s.cap.st = .closing ∧ s.lnk.slots.length < 16 then s.placeEnd else s) := by
  have hnext : s.cap.next = some .closing := hn
  show execBuildEnd s = _
  simp only [execBuildEnd, hnext, Lnk.slotFree, decide_eq_true_eq]
  rfl

theorem exec_buildEnd_not_reached {s : State} (hn : s.cap.plan[s.cap.pos]? ≠ some .closing) :
    exec .buildEnd s = .next s := by
  show execBuildEnd s = _
  unfold execBuildEnd
  split
  next h => exact absurd h hn
  next => rfl

/-- Settles O39, by what comes next in the plan. -/
theorem fillAndEndFramesTakeSlots : Obligations.FillAndEndFramesTakeSlots := by
  unfold Obligations.FillAndEndFramesTakeSlots
  intro s
  refine ⟨fun i d hn hd hc hf => ?_, fun h => ?_, fun r older hn hc hf hh => ?_, fun h => ?_⟩
  · have hw : windowAt s.win.table i = d := by rw [windowAt, List.getD_eq_getElem?_getD, hd, Option.getD_some]
    rw [exec_placeFillFrame_reached hn, if_pos ⟨hc, hf⟩, State.placeFill, State.fillFrame, hw]
    rfl
  · by_cases hn : ∃ i, s.cap.plan[s.cap.pos]? = some (.fill i)
    · obtain ⟨i, hi⟩ := hn
      rw [exec_placeFillFrame_reached hi, if_neg]
      rintro ⟨hc, hf⟩
      exact h.elim (· ⟨i, hi⟩) (Or.elim · hc (Nat.not_le.2 hf))
    · exact exec_placeFillFrame_not_reached hn
  · rw [exec_buildEnd_reached hn, if_pos ⟨hc, hf⟩, State.placeEnd, Frz.update_cons hh]
    rfl
  · by_cases hn : s.cap.plan[s.cap.pos]? = some .closing
    · rw [exec_buildEnd_reached hn, if_neg]
      rintro ⟨hc, hf⟩
      exact h.elim (· hn) (Or.elim · (· hc) (Nat.not_le.2 hf))
    · exact exec_buildEnd_not_reached hn

/-! ### Completions of copier reads (R81 to R83, R85, R86) -/

@[simp] theorem State.sendToMemory_frz (s : State) : s.sendToMemory.frz = s.frz := by
  obtain ⟨q, n, o, h, -, -⟩ := s.sendToMemory_eq
  rw [h]

@[simp] theorem State.sendToMemory_cap (s : State) : s.sendToMemory.cap = s.cap := by
  obtain ⟨q, n, o, h, -, -⟩ := s.sendToMemory_eq
  rw [h]

@[simp] theorem State.sendToMemory_lnk (s : State) : s.sendToMemory.lnk = s.lnk := by
  obtain ⟨q, n, o, h, -, -⟩ := s.sendToMemory_eq
  rw [h]

/-- R141, R147: a completion of a copier read, once its credit is back, is the copier's. -/
theorem exec_completion_copier {s : State} {e : MemEntry} {rest : List MemEntry} (hq : s.mp.queue = e :: rest)
    (hi : e.issued = true) (ha : e.access = .copier) (ok : Bool) (data : Block) :
    exec (.completion ok data) s = .next ((State.sendToMemory { s with mp := s.mp.retire rest }).copierDone ok data) := by
  show execCompletion ok data s = _
  simp only [execCompletion, hq, hi, if_true, State.handOver, ha]

theorem State.copierDone_stale {s : State} (h : s.cap.stale ≠ 0) (ok : Bool) (data : Block) :
    s.copierDone ok data = { s with cap := { s.cap with reads := s.cap.reads - 1, stale := s.cap.stale - 1 } } :=
  if_pos (Nat.pos_of_ne_zero h)

theorem State.copierDone_current {s : State} (h : s.cap.stale = 0) (ok : Bool) (data : Block) :
    s.copierDone ok data =
      State.copierReadDone { s with cap := { s.cap with reads := s.cap.reads - 1 } } ok data := by
  have hs : s.cap.stale - 1 = s.cap.stale := by omega
  rw [State.copierDone, hs]
  exact if_neg (by omega)

/-- R83: the last DATA frame is complete where none is left to begin and no slot is FILLING. -/
theorem State.imageRead_iff (s : State) :
    s.imageRead = true ↔
      (s.cap.plan.drop s.cap.pos).any PlanFrame.isData = false ∧ ∀ q ∈ s.lnk.slots, q.st ≠ .filling := by
  simp [State.imageRead, Slot.isFilling]

theorem updateFirst_append {before : List Slot} {p : Slot → Bool} {q : Slot} (hb : ∀ x ∈ before, p x = false)
    (hq : p q = true) (f : Slot → Slot) (after : List Slot) :
    updateFirst p f (before ++ q :: after) = before ++ f q :: after := by
  induction before with
  | nil => exact if_pos hq
  | cons x xs ih =>
    obtain ⟨hx, hxs⟩ := List.forall_mem_cons.1 hb
    rw [List.cons_append, updateFirst, hx, ih hxs]
    rfl

/-- R81: a block joins the payload of a DATA frame, and at 256 bytes the slot is READY. -/
theorem Slot.receive_data {q : Slot} {ep : Word16} {n w c g : Nat} {p : List Byte} (hf : q.frame = .data ep n w c g p)
    (b : Block) :
    q.receive b =
      { q with frame := .data ep n w c g (p ++ b.toList), st := if p.length + 32 = 256 then .ready else q.st } := by
  simp [Slot.receive, hf, Frame.extend, Frame.payloadLength]

section

/-! The oldest FILLING slot `q`, with what stands before and after it. -/

variable {s : State} {before after : List Slot} {q : Slot} {ep : Word16} {n w c g : Nat} {p : List Byte}

/-- R81: a read is for the oldest FILLING slot. -/
theorem State.find_filling (hs : s.lnk.slots = before ++ q :: after) (hb : ∀ x ∈ before, x.st ≠ .filling)
    (hq : q.st = .filling) : s.lnk.slots.find? Slot.isFilling = some q := by
  rw [hs, List.find?_append, List.find?_eq_none.2 (by simpa [Slot.isFilling] using hb), Option.none_or,
    List.find?_cons_of_pos (by simp [Slot.isFilling, hq])]

/-- R81, R85: what a block read changes, in terms of the frame its slot holds. -/
theorem State.storeRead_eq (hs : s.lnk.slots = before ++ q :: after) (hb : ∀ x ∈ before, x.st ≠ .filling)
    (hq : q.st = .filling) (hf : q.frame = .data ep n w c g p) (b : Block) :
    s.storeRead q b =
      { s with
        cap := { s.cap with
          digest := crcUpdate s.cap.digest b.toList
          dataBuilt := s.cap.dataBuilt + if p.length + 32 = 256 then 1 else 0
          remain := s.cap.remain - if p.length + 32 = 256 ∧ c = 15 then 1 else 0 }
        lnk := { s.lnk with
          slots := before ++
            { q with frame := .data ep n w c g (p ++ b.toList), st := if p.length + 32 = 256 then .ready else .filling } ::
              after }
        frz := s.frz.update fun r =>
          { r with granules := r.granules + if p.length + 32 = 256 ∧ c = 15 then 1 else 0 } } := by
  have slots := updateFirst_append (p := Slot.isFilling) (by simpa [Slot.isFilling] using hb) (decide_eq_true hq)
    (fun x => x.receive b) after
  rw [State.storeRead, hs, slots, Slot.receive_data hf, hq]
  simp [hf, Frame.lastChunk]

/-- R81, R83: a block of the active epoch is stored, and capture is complete with the last one of the plan. -/
theorem State.copierReadDone_ok (hs : s.lnk.slots = before ++ q :: after) (hb : ∀ x ∈ before, x.st ≠ .filling)
    (hq : q.st = .filling) (b : Block) :
    s.copierReadDone true b =
      if ((s.storeRead q b).cap.plan.drop (s.storeRead q b).cap.pos).any PlanFrame.isData = false ∧
          ∀ x ∈ (s.storeRead q b).lnk.slots, x.st ≠ .filling
      then (s.storeRead q b).captureComplete else s.storeRead q b := by
  simp only [State.copierReadDone, if_true, State.find_filling hs hb hq, ← State.imageRead_iff]

end

/-- Settles O38, by whether the read is stale and by its status. -/
theorem copierCompletions : Obligations.CopierCompletions := by
  unfold Obligations.CopierCompletions
  intro s ok data e rest hq hi ha u
  have done : ∀ ok, exec (.completion ok data) s = .next (u.copierDone ok data) :=
    fun ok => exec_completion_copier hq hi ha ok data
  have hcap : u.cap = s.cap := State.sendToMemory_cap _
  have hlnk : u.lnk = s.lnk := State.sendToMemory_lnk _
  have hfrz : u.frz = s.frz := State.sendToMemory_frz _
  refine ⟨fun h => ?_, fun h => ?_, fun h before q after ep n w c g p hs hb hf hd => ?_⟩
  · rw [done, State.copierDone_stale (by rwa [hcap]), hcap]
  · rw [done, State.copierDone_current (by rwa [hcap]), hcap]
    rfl
  · intro whole captured t
    rw [done, State.copierDone_current (by rwa [hcap]), hcap, State.copierReadDone_ok (by rwa [← hlnk] at hs) hb hf]
    have stored : State.storeRead { u with cap := { s.cap with reads := s.cap.reads - 1 } } q data = t := by
      rw [State.storeRead_eq (by rwa [← hlnk] at hs) hb hf hd, hlnk, hfrz]
      rfl
    rw [stored]

end Sys2Proof.Machine

/-! ## The retransmit window: what every step keeps of the occupied slots and the points A, T and N (05 R94, R95) -/

namespace Sys2Proof.Machine

/-! ### Sequence numbers of slots -/

theorem Slot.markSent_seq (n : Nat) (q : Slot) : (q.markSent n).seq = q.seq := by
  unfold Slot.markSent; split <;> rfl

theorem Slot.rewind_seq (n : Nat) (q : Slot) : (q.rewind n).seq = q.seq := by
  unfold Slot.rewind; split <;> rfl

/-- A change of slots that keeps each one's sequence number. -/
theorem map_seq_map {f : Slot → Slot} (hf : ∀ q, (f q).seq = q.seq) (slots : List Slot) :
    (slots.map f).map Slot.seq = slots.map Slot.seq := by
  rw [List.map_map]
  exact List.map_congr_left fun q _ => hf q

theorem map_seq_updateFirst {f : Slot → Slot} (hf : ∀ q, (f q).seq = q.seq) (p : Slot → Bool) (slots : List Slot) :
    (updateFirst p f slots).map Slot.seq = slots.map Slot.seq := by
  induction slots with
  | nil => rfl
  | cons q qs ih =>
    unfold updateFirst
    split
    · exact congrArg (· :: qs.map Slot.seq) (hf q)
    · exact congrArg (q.seq :: ·) ih

/-- Of consecutive numbers, those from `n` on are consecutive from `n` on. -/
theorem filter_le_range' {a n len : Nat} (ha : a ≤ n) (hn : n ≤ a + len) :
    (List.range' a len).filter (fun i => decide (n ≤ i)) = List.range' n (a + len - n) := by
  have split : List.range' a len = List.range' a (n - a) ++ List.range' n (a + len - n) := by
    have h := List.range'_append_1 (s := a) (m := n - a) (n := a + len - n)
    rw [show a + (n - a) = n by omega, show n - a + (a + len - n) = len by omega] at h
    exact h.symm
  have below : (List.range' a (n - a)).filter (fun i => decide (n ≤ i)) = [] := by
    rw [List.filter_eq_nil_iff]
    intro i hi
    rw [List.mem_range'_1] at hi
    simp only [decide_eq_true_eq]
    omega
  have above : (List.range' n (a + len - n)).filter (fun i => decide (n ≤ i)) = List.range' n (a + len - n) := by
    rw [List.filter_eq_self]
    intro i hi
    rw [List.mem_range'_1] at hi
    exact decide_eq_true hi.1
  rw [split, List.filter_append, below, above, List.nil_append]

/-! ### What a change must keep -/

namespace State.WindowKept

variable {s t : State}

/-- With no slot occupied, no epoch active and the copier IDLE there is nothing to keep. -/
theorem of_ended (hs : t.lnk.slots = []) (ha : t.frz.active = false) (hc : t.cap.st = .idle) : t.WindowKept where
  atMost := by rw [hs]; exact Nat.zero_le _
  consecutive := by rw [hs]; rfl
  ackBelowTx h := by rw [ha] at h; cases h
  txBelowSent h := by rw [ha] at h; cases h
  sentHeld h := by rw [ha] at h; cases h
  nextPlace h := absurd hc h

section

variable (h : s.WindowKept)
include h

/-- The sequence numbers of the slots, the points A, T and N and the copier's place are the same; no epoch has begun and the
copier has not been set to work. -/
theorem congr (hs : t.lnk.slots.map Slot.seq = s.lnk.slots.map Slot.seq := by rfl)
    (ha : t.lnk.ackPt = s.lnk.ackPt := by rfl) (ht : t.lnk.txPt = s.lnk.txPt := by rfl)
    (hn : t.lnk.sentCnt = s.lnk.sentCnt := by rfl) (he : t.frz.active = s.frz.active := by rfl)
    (hc : t.cap.st ≠ .idle → s.cap.st ≠ .idle := by exact id) (hp : t.cap.pos = s.cap.pos := by rfl) :
    t.WindowKept := by
  have hl : t.lnk.slots.length = s.lnk.slots.length := by simpa using congrArg List.length hs
  constructor
  case atMost => rw [hl]; exact h.atMost
  case consecutive => rw [hs, ha, hl]; exact h.consecutive
  case ackBelowTx => rw [he, ha, ht]; exact h.ackBelowTx
  case txBelowSent => rw [he, ht, hn]; exact h.txBelowSent
  case sentHeld => rw [he, hn, ha, hl]; exact h.sentHeld
  case nextPlace => rw [hp, ha, hl]; exact fun hi => h.nextPlace (hc hi)

/-- R94: a FREE slot takes the frame at the copier's place, and the copier goes on to the next. -/
theorem addSlot (q : Slot) (hw : s.cap.st ≠ .idle) (hf : s.lnk.slotFree = true) (hq : q.seq = s.cap.pos)
    (hl : t.lnk = { s.lnk with slots := s.lnk.slots ++ [q] }) (he : t.frz.active = s.frz.active)
    (hp : t.cap.pos = s.cap.pos + 1) : t.WindowKept := by
  have hpos : s.cap.pos = s.lnk.ackPt + s.lnk.slots.length := h.nextPlace hw
  have hlen : t.lnk.slots.length = s.lnk.slots.length + 1 := by rw [hl]; simp
  have hfree : s.lnk.slots.length < 16 := of_decide_eq_true hf
  have ha : t.lnk.ackPt = s.lnk.ackPt := by rw [hl]
  have ht : t.lnk.txPt = s.lnk.txPt := by rw [hl]
  have hn : t.lnk.sentCnt = s.lnk.sentCnt := by rw [hl]
  constructor
  case atMost => omega
  case consecutive =>
    rw [hlen, ha, List.range'_1_concat, ← h.consecutive, hl, List.map_append, ← hpos, ← hq]
    rfl
  case ackBelowTx => rw [he, ha, ht]; exact h.ackBelowTx
  case txBelowSent => rw [he, ht, hn]; exact h.txBelowSent
  case sentHeld => rw [he, hn, ha, hlen]; exact fun hi => (h.sentHeld hi).trans (by omega)
  case nextPlace => intro _; omega

/-- R94: the sequence number of an occupied slot lies within the window. -/
theorem seq_of_slot {q : Slot} (hq : q ∈ s.lnk.slots) :
    s.lnk.ackPt ≤ q.seq ∧ q.seq < s.lnk.ackPt + s.lnk.slots.length := by
  have hm : q.seq ∈ s.lnk.slots.map Slot.seq := List.mem_map_of_mem hq
  rw [h.consecutive] at hm
  exact List.mem_range'_1.1 hm

end

end State.WindowKept

/-! ### Takes, the slot of requests, and the end of a stall -/

theorem State.WindowKept.takePlain {s : State} (h : s.WindowKept) (w : WriteReq) : (s.takePlain w).WindowKept := by
  unfold State.takePlain
  split <;> exact h.congr

theorem State.WindowKept.endStallWith {s : State} (h : s.WindowKept) {take : State → WriteReq → State}
    (ht : ∀ w, (take s w).WindowKept) : (s.endStallWith take).WindowKept := by
  unfold State.endStallWith
  split
  · exact ht _
  · exact h.congr

theorem State.WindowKept.emptySlot {s : State} (h : s.WindowKept) : s.emptySlot.WindowKept :=
  h.congr

theorem State.WindowKept.cancelSlot {s : State} (h : s.WindowKept) : s.cancelSlot.WindowKept := by
  unfold State.cancelSlot
  split
  · exact h
  · split
    · exact h.emptySlot.endStallWith h.emptySlot.takePlain
    · exact h.emptySlot
    · exact h.emptySlot

theorem State.WindowKept.endExhaustion {s : State} (h : s.WindowKept) : s.endExhaustion.WindowKept := by
  unfold State.endExhaustion
  split
  · exact h.endStallWith fun _ => h.congr
  · exact h

/-! ### The freeze point and capture complete -/

/-- R16, R83: capture complete leaves the window as it is, for a copier that is at work; an epoch active after it was active
before. -/
theorem State.WindowKept.captureComplete {s : State} (h : s.WindowKept) (ha : s.frz.active = true) (hc : s.cap.st ≠ .idle) :
    s.captureComplete.WindowKept := by
  obtain ⟨r, older, hh, -⟩ := s.frz.active_iff.1 ha
  refine State.WindowKept.endExhaustion (h.congr (he := ?_) (hc := fun _ => hc))
  rw [Frz.update_cons hh, ha]
  rfl

/-- R6, R76, R77, R95: at a freeze point A, T and N are 0, and OPEN and the FILL frames behind it hold the sequence numbers
from 0 on. -/
theorem State.windowKept_beginEpoch (s : State) (src : Source) (k : Kind) : (s.beginEpoch src k).WindowKept := by
  obtain ⟨n, more, e, hseq, hlen, -, h16⟩ := s.beginEpoch_eq src k
  rw [e]
  constructor
  case atMost => simpa [hlen, Nat.add_comm] using h16
  case consecutive => simp [hseq, hlen, List.range'_succ, Lnk.begin]
  case ackBelowTx => exact fun _ => Nat.le_refl 0
  case txBelowSent => exact fun _ => Nat.le_refl 0
  case sentHeld => exact fun _ => Nat.zero_le _
  case nextPlace => exact fun _ => by simp [hlen, Nat.add_comm, Lnk.begin]

theorem State.beginEpoch_works (s : State) (src : Source) (k : Kind) : (s.beginEpoch src k).cap.st ≠ .idle := by
  obtain ⟨n, more, e, -⟩ := s.beginEpoch_eq src k
  rw [e]
  exact nofun

theorem State.windowKept_freezePoint (s : State) (src : Source) (k : Kind) : (s.freezePoint src k).WindowKept := by
  have hb := s.windowKept_beginEpoch src k
  unfold State.freezePoint
  simp only
  split
  · exact hb
  · refine hb.captureComplete ?_ (s.beginEpoch_works src k)
    rw [State.beginEpoch_frz]
    exact Frz.active_of_capturing (s.frz.capturing_beginEpoch src k)

theorem State.windowKept_takeEffect (s : State) (q : FreezeReq) : (s.takeEffect q).WindowKept := by
  unfold State.takeEffect
  split
  · exact (State.windowKept_freezePoint _ _ _).congr
  · exact State.windowKept_freezePoint _ _ _
  · exact State.windowKept_freezePoint _ _ _

theorem State.WindowKept.evaluate {s : State} (h : s.WindowKept) : s.evaluate.WindowKept := by
  unfold State.evaluate
  split
  · split
    · exact s.windowKept_takeEffect _
    · exact h
  · exact h

/-! ### Breaks, commits and the end of the drain -/

/-- The newest record takes a state that is not active. -/
theorem Frz.active_update_ended (z : Frz) (f : EpochRecord → EpochRecord) (hf : ∀ r, (f r).state.active = false) :
    (z.update f).active = false := by
  cases h : z.history with
  | nil => simp [Frz.active, Frz.update, h]
  | cons r older => rw [Frz.update_cons h, Frz.active_cons rfl, hf]

/-- R20, R86, R112: a break frees every slot. -/
theorem State.windowKept_breakNow (s : State) (c : BreakCause) : (s.breakNow c).WindowKept := by
  have ended : (s.breakCore c).frz.active = false := s.frz.active_update_ended _ fun _ => rfl
  unfold State.breakNow
  split
  · exact State.WindowKept.endExhaustion (.of_ended rfl ended s.cap.stop_st)
  · exact .of_ended rfl ended s.cap.stop_st

theorem State.WindowKept.breakEpoch {s : State} (h : s.WindowKept) (c : BreakCause) : (s.breakEpoch c).WindowKept := by
  unfold State.breakEpoch
  split
  · exact (s.windowKept_breakNow c).evaluate
  · exact h

theorem State.WindowKept.stallExpire {s : State} (h : s.WindowKept) : s.stallExpire.WindowKept := by
  unfold State.stallExpire
  split
  · exact (h.emptySlot.endStallWith h.emptySlot.takePlain).congr
  · exact h.breakEpoch _
  · exact h

theorem State.WindowKept.exhaust {s : State} (h : s.WindowKept) (w : WriteReq) : (s.exhaust w).WindowKept := by
  unfold State.exhaust
  split
  · exact (h.breakEpoch _).congr
  · exact h.congr

/-- R18, R106: an accepted COMMIT frees every slot; the copier has finished before the controller awaits it. -/
theorem State.PhasesKept.windowKept_commit {s : State} (h : s.PhasesKept) (epoch : Word16) (hw : s.lnk.ctl = .awaitCommit) :
    (State.commitEpoch { s with lnk := s.lnk.acceptCommit s.cap.plan.length epoch }).WindowKept := by
  refine State.WindowKept.evaluate (.of_ended rfl ?_ (h.awaiting hw))
  exact s.frz.active_update_ended (fun r => { r with state := .committed }) fun _ => rfl

theorem State.WindowKept.endDrain {s : State} (h : s.WindowKept) : s.endDrain.WindowKept := by
  unfold State.endDrain
  split
  · exact State.WindowKept.evaluate h.congr
  · exact h

theorem State.WindowKept.drainDone {s : State} (h : s.WindowKept) (e : JEntry) (ok : Bool) :
    (s.drainDone e ok).WindowKept := by
  unfold State.drainDone
  split
  · split
    · exact h.congr
    · exact State.WindowKept.endDrain h.congr
  · split
    · exact h.congr
    · exact State.WindowKept.endDrain h.congr

/-! ### The copier -/

/-- R81: the bytes of a read join a slot in its place. -/
theorem State.WindowKept.storeRead {s : State} (h : s.WindowKept) (q : Slot) (b : Block) : (s.storeRead q b).WindowKept :=
  h.congr (hs := map_seq_updateFirst (f := fun x => x.receive b) (fun _ => rfl) _ _) (he := (s.samePhase_storeRead q b).active)

theorem State.WindowKept.copierReadDone {s : State} (h : s.WindowKept) (hp : s.PhasesKept) (ok : Bool) (data : Block) :
    (s.copierReadDone ok data).WindowKept := by
  unfold State.copierReadDone
  split
  · split
    · rename_i q hq
      have hfill : q.st = .filling := by simpa [Slot.isFilling] using List.find?_some hq
      have hc : s.frz.capturing = true := hp.filling q (List.mem_of_find?_eq_some hq) hfill
      have hactive := (s.samePhase_storeRead q data).active.trans (Frz.active_of_capturing hc)
      have hcopying : (s.storeRead q data).cap.st = .copying := hp.copying.2 hc
      simp only
      split
      · exact (h.storeRead q data).captureComplete hactive (by rw [hcopying]; decide)
      · exact h.storeRead q data
    · exact h
  · exact h.breakEpoch _

theorem State.WindowKept.copierDone {s : State} (h : s.WindowKept) (hp : s.PhasesKept) (ok : Bool) (data : Block) :
    (s.copierDone ok data).WindowKept := by
  unfold State.copierDone
  simp only
  split
  · exact h.congr
  · exact State.WindowKept.copierReadDone h.congr hp.congr ok data

/-- R80: the case in which the copier begins a DATA frame. -/
theorem State.copierHasRead_begins {s : State} (hw : s.copierHasRead = true)
    (hu : s.lnk.slots.find? Slot.unissued = none) : s.cap.st = .copying ∧ s.lnk.slotFree = true := by
  have hany : s.lnk.slots.any Slot.unissued = false := by simpa using hu
  simp only [State.copierHasRead, hany, Bool.false_or, Bool.and_eq_true, decide_eq_true_eq] at hw
  exact ⟨hw.1.1, hw.2.2⟩

theorem State.WindowKept.copierIssue {s : State} (h : s.WindowKept) (hw : s.copierHasRead = true) :
    s.copierIssue.1.WindowKept := by
  unfold State.copierIssue
  split
  · exact h.congr (hs := map_seq_updateFirst (f := fun x => { x with issued := x.issued + 1 }) (fun _ => rfl) _ _)
  · obtain ⟨hcopying, hfree⟩ := State.copierHasRead_begins hw ‹_›
    split
    · exact h.addSlot (s.newDataSlot _ _ _) (by rw [hcopying]; decide) hfree rfl rfl rfl rfl
    · exact h

theorem State.WindowKept.grantTo {s : State} (h : s.WindowKept) (r : Requester) (hw : s.hasWork r = true) :
    (s.grantTo r).WindowKept := by
  cases r with
  | live =>
    unfold State.grantTo
    simp only
    split
    · exact h.congr
    · exact h
  | drain =>
    unfold State.grantTo
    simp only
    split
    · exact h.congr
    · exact h
  | copier => exact (h.copierIssue hw).congr

/-- R84: END takes a slot. -/
theorem State.WindowKept.placeEnd {s : State} (h : s.WindowKept) (hc : s.cap.st = .closing) (hf : s.lnk.slotFree = true) :
    s.placeEnd.WindowKept :=
  h.addSlot { st := .ready, seq := s.cap.pos, frame := s.endFrame, issued := 0 } (by rw [hc]; decide) hf rfl rfl
    (Frz.active_update s.frz _ fun _ => rfl) rfl

/-! ### The link controller -/

theorem Lnk.seq_of_startable {l : Lnk} {q : Slot} (h : l.startable = some q) : q.seq = l.txPt := by
  unfold Lnk.startable at h
  split at h
  · simpa using List.find?_some (Option.filter_eq_some_iff.1 h).1
  · cases h

/-- R95, R97: the frame at T starts; T rises, and N with it if the frame had not been sent before. -/
theorem State.WindowKept.startFrame {s : State} (h : s.WindowKept) (q : Slot) (hq : s.lnk.startable = some q) :
    (s.startFrame q).WindowKept := by
  have hseq : q.seq = s.lnk.txPt := Lnk.seq_of_startable hq
  obtain ⟨hA, hlast⟩ := h.seq_of_slot (Lnk.mem_of_startable hq)
  have hact : (s.startFrame q).frz.active = s.frz.active := by
    refine Frz.active_update s.frz _ fun r => ?_
    split <;> rfl
  have hlen : (s.startFrame q).lnk.slots.length = s.lnk.slots.length := List.length_map _
  have hT : (s.startFrame q).lnk.txPt = s.lnk.txPt + 1 := rfl
  have hN : (s.startFrame q).lnk.sentCnt = if q.seq = s.lnk.sentCnt then s.lnk.sentCnt + 1 else s.lnk.sentCnt := rfl
  have hA' : (s.startFrame q).lnk.ackPt = s.lnk.ackPt := rfl
  constructor
  case atMost => rw [hlen]; exact h.atMost
  case consecutive =>
    rw [hlen]
    exact (map_seq_map (Slot.markSent_seq q.seq) _).trans h.consecutive
  case ackBelowTx => intro _; omega
  case txBelowSent =>
    intro ha
    have hTN : s.lnk.txPt ≤ s.lnk.sentCnt := h.txBelowSent (hact ▸ ha)
    rw [hT, hN]
    split <;> omega
  case sentHeld =>
    intro ha
    have hNheld : s.lnk.sentCnt ≤ s.lnk.ackPt + s.lnk.slots.length := h.sentHeld (hact ▸ ha)
    rw [hN, hA', hlen]
    split <;> omega
  case nextPlace =>
    rw [hlen]
    exact h.nextPlace

/-- R101, R102: the frames below `n`, all of them sent, are acknowledged. -/
theorem State.WindowKept.ackBelow {s : State} (h : s.WindowKept) (ha : s.frz.active = true) {n : Nat} (h1 : s.lnk.ackPt ≤ n)
    (h2 : n ≤ s.lnk.sentCnt) : State.WindowKept { s with lnk := s.lnk.ackBelow n } := by
  have hT := h.txBelowSent ha
  have hN := h.sentHeld ha
  have hseq : (s.lnk.ackBelow n).slots.map Slot.seq =
      List.range' n (s.lnk.ackPt + s.lnk.slots.length - n) := by
    rw [← filter_le_range' h1 (h2.trans hN), ← h.consecutive, List.filter_map]
    rfl
  have hlen : (s.lnk.ackBelow n).slots.length = s.lnk.ackPt + s.lnk.slots.length - n := by
    simpa using congrArg List.length hseq
  constructor
  case atMost => exact (List.length_filter_le _ _).trans h.atMost
  case consecutive => exact hseq.trans (by rw [hlen]; rfl)
  case ackBelowTx => exact fun _ => Nat.le_max_right _ _
  case txBelowSent => exact fun _ => Nat.max_le.2 ⟨hT, h2⟩
  case sentHeld =>
    intro _
    show s.lnk.sentCnt ≤ n + (s.lnk.ackBelow n).slots.length
    omega
  case nextPlace =>
    intro hc
    have hpos : s.cap.pos = s.lnk.ackPt + s.lnk.slots.length := h.nextPlace hc
    show s.cap.pos = n + (s.lnk.ackBelow n).slots.length
    omega

/-- R110: a round sets T back to a point between A and N. -/
theorem State.WindowKept.startRound {s : State} (h : s.WindowKept) {n : Nat}
    (hn : s.frz.active = true → s.lnk.ackPt ≤ n ∧ n ≤ s.lnk.sentCnt) : (s.startRound n).WindowKept := by
  have hl : (s.lnk.round n).slots.length = s.lnk.slots.length := List.length_map _
  unfold State.startRound
  split
  · exact h.breakEpoch _
  · constructor
    case atMost => exact hl.trans_le h.atMost
    case consecutive => exact (map_seq_map (Slot.rewind_seq n) _).trans (h.consecutive.trans (by rw [← hl]; rfl))
    case ackBelowTx => exact fun ha => (hn ha).1
    case txBelowSent => exact fun ha => (hn ha).2
    case sentHeld => exact fun ha => (h.sentHeld ha).trans_eq (by rw [← hl]; rfl)
    case nextPlace => exact fun hc => (h.nextPlace hc).trans (by rw [← hl]; rfl)

/-- R109: the expiry of the ack timer starts its round at A. -/
theorem State.WindowKept.ackExpire {s : State} (h : s.WindowKept) : s.ackExpire.WindowKept :=
  (h.congr (t := s.count .ackTimeouts)).startRound fun ha => ⟨Nat.le_refl _, (h.ackBelowTx ha).trans (h.txBelowSent ha)⟩

/-! ### Every step -/

theorem State.WindowKept.send {s : State} (h : s.WindowKept) : s.sendToMemory.WindowKept := by
  obtain ⟨q, n, o, e, -, -⟩ := s.sendToMemory_eq
  rw [e]
  exact h.congr

theorem State.windowKept_completionClosed : CompletionClosed fun s => s.PhasesKept ∧ s.WindowKept where
  alert s a h := ⟨State.phasesKept_completionClosed.alert s a h.1, h.2.congr⟩
  stats s t h := ⟨State.phasesKept_completionClosed.stats s t h.1, h.2.congr⟩
  out s o h := ⟨State.phasesKept_completionClosed.out s o h.1, h.2.congr⟩
  retire s e rest hq hi h := ⟨State.phasesKept_completionClosed.retire s e rest hq hi h.1, h.2.congr⟩
  send _ h := ⟨h.1.send, h.2.send⟩
  dropRead s n h := ⟨State.phasesKept_completionClosed.dropRead s n h.1, h.2.congr⟩
  dropWrite s n h := ⟨State.phasesKept_completionClosed.dropWrite s n h.1, h.2.congr⟩
  drainDone _ _ e ok _ h := ⟨h.1.drainDone e ok, h.2.drainDone e ok⟩
  copierDone _ ok data h := ⟨h.1.copierDone ok data, h.2.copierDone h.1 ok data⟩

theorem State.windowKept_commandClosed : CommandClosed State.WindowKept where
  mgmt _ _ _ _ _ _ h := h.congr
  alert _ _ h := h.congr
  stats _ _ h := h.congr
  resetting _ h := h.congr
  baseline _ h := h.congr
  slot _ _ h := h.congr
  staging _ _ _ h := h.congr
  table _ _ _ _ _ _ h := h.congr
  freezePoint s k _ _ := s.windowKept_freezePoint _ k
  cancelSlot _ h := h.cancelSlot
  breakEpoch _ c h := h.breakEpoch c

theorem State.windowKept_stepClosed : StepClosed fun s => (s.configKept ∧ s.PhasesKept) ∧ s.WindowKept where
  writeCmd s code h := ⟨State.phasesKept_stepClosed.writeCmd s code h.1, State.windowKept_commandClosed.writeCmd s code h.2⟩
  mgmt s g h1 h2 h3 h4 h5 h6 h := ⟨State.phasesKept_stepClosed.mgmt s g h1 h2 h3 h4 h5 h6 h.1, h.2.congr⟩
  alert s a h := ⟨State.phasesKept_stepClosed.alert s a h.1, h.2.congr⟩
  stats s t h := ⟨State.phasesKept_stepClosed.stats s t h.1, h.2.congr⟩
  kinds s l m h := ⟨State.phasesKept_stepClosed.kinds s l m h.1, h.2.congr⟩
  stallLimit s v h := ⟨State.phasesKept_stepClosed.stallLimit s v h.1, h.2.congr⟩
  epochLimit s v h := ⟨State.phasesKept_stepClosed.epochLimit s v h.1, h.2.congr⟩
  hwm s v hw h := ⟨State.phasesKept_stepClosed.hwm s v hw h.1, h.2.congr⟩
  lwm s v a hw h := ⟨State.phasesKept_stepClosed.lwm s v a hw h.1, h.2.congr⟩
  policy s p h := ⟨State.phasesKept_stepClosed.policy s p h.1, h.2.congr⟩
  fault s f h := ⟨State.phasesKept_stepClosed.fault s f h.1, h.2.congr⟩
  staging s v hv h := ⟨State.phasesKept_stepClosed.staging s v hv h.1, h.2.congr⟩
  ackTmo s v hv h := ⟨State.phasesKept_stepClosed.ackTmo s v hv h.1, h.2.congr⟩
  retryLim s v h1 h15 h := ⟨State.phasesKept_stepClosed.retryLim s v h1 h15 h.1, h.2.congr⟩
  pauseLim s v h := ⟨State.phasesKept_stepClosed.pauseLim s v h.1, h.2.congr⟩
  weights s w hl hd hc h := ⟨State.phasesKept_stepClosed.weights s w hl hd hc h.1, h.2.congr⟩
  breakEpoch s c h := ⟨State.phasesKept_stepClosed.breakEpoch s c h.1, h.2.breakEpoch c⟩
  stallExpire s h := ⟨State.phasesKept_stepClosed.stallExpire s h.1, h.2.stallExpire⟩
  ackExpire s h := ⟨State.phasesKept_stepClosed.ackExpire s h.1, h.2.ackExpire⟩
  pending s cs h := ⟨State.phasesKept_stepClosed.pending s cs h.1, h.2.congr⟩
  rx s r h := ⟨State.phasesKept_stepClosed.rx s r h.1, h.2.congr⟩
  tickLen s h := ⟨State.phasesKept_stepClosed.tickLen s h.1, h.2.congr⟩
  out s o h := ⟨State.phasesKept_stepClosed.out s o h.1, h.2.congr⟩
  powerOn straps high cs o := ⟨State.phasesKept_stepClosed.powerOn straps high cs o, .of_ended rfl rfl rfl⟩
  finalStep s hr h := ⟨State.phasesKept_stepClosed.finalStep s hr h.1, .of_ended rfl rfl rfl⟩
  portReset s h := ⟨State.phasesKept_stepClosed.portReset s h.1, h.2.congr⟩
  lineSeenLow s b h := ⟨State.phasesKept_stepClosed.lineSeenLow s b h.1, h.2.congr⟩
  freeze s src k hf h := ⟨State.phasesKept_stepClosed.freeze s src k hf h.1, s.windowKept_freezePoint src k⟩
  evaluate s h := ⟨State.phasesKept_stepClosed.evaluate s h.1, h.2.evaluate⟩
  linkUp s h := ⟨State.phasesKept_stepClosed.linkUp s h.1, h.2.congr⟩
  lose s h := ⟨State.phasesKept_stepClosed.lose s h.1, h.2.congr⟩
  arriveRead s q hc h := ⟨State.phasesKept_stepClosed.arriveRead s q hc h.1, h.2.congr⟩
  arriveWrite s q hc h := ⟨State.phasesKept_stepClosed.arriveWrite s q hc h.1, h.2.congr⟩
  popRead s hl h := ⟨State.phasesKept_stepClosed.popRead s hl h.1, h.2.congr⟩
  popWrite s hl hs h := ⟨State.phasesKept_stepClosed.popWrite s hl hs h.1, h.2.congr⟩
  addRead s r c hr h := ⟨State.phasesKept_stepClosed.addRead s r c hr h.1, h.2.congr⟩
  straight s w hl hs hr h := ⟨State.phasesKept_stepClosed.straight s w hl hs hr h.1, h.2.congr⟩
  merge s w hl hs hh h := ⟨State.phasesKept_stepClosed.merge s w hl hs hh h.1, h.2.congr⟩
  allocate s w i hl hs hh h := ⟨State.phasesKept_stepClosed.allocate s w i hl hs hh h.1, h.2.congr⟩
  exhaust s w hl hs hh hr h := ⟨State.phasesKept_stepClosed.exhaust s w hl hs hh hr h.1, h.2.exhaust w⟩
  lineWaits s k hs h := ⟨State.phasesKept_stepClosed.lineWaits s k hs h.1, h.2.congr⟩
  markerWaits s w k hl hs hq hr h := ⟨State.phasesKept_stepClosed.markerWaits s w k hl hs hq hr h.1, h.2.congr⟩
  send s h := ⟨State.phasesKept_stepClosed.send s h.1, h.2.send⟩
  grant s hg h :=
    ⟨State.phasesKept_stepClosed.grant s hg h.1,
      (h.2.congr (t := { s with mp := (Mp.seek s.hasWork arbiterLooks s.mp).won })).grantTo _
        (State.hasWork_seek h.1.1 hg)⟩
  complete s e rest ok data hq hi h :=
    ⟨State.phasesKept_stepClosed.complete s e rest ok data hq hi h.1,
      (State.windowKept_completionClosed.complete s e rest ok data hq hi ⟨h.1.2, h.2⟩).2⟩
  placeFill s i hn hc hf h :=
    ⟨State.phasesKept_stepClosed.placeFill s i hn hc hf h.1,
      h.2.addSlot { st := .ready, seq := s.cap.pos, frame := s.fillFrame i, issued := 0 } hc hf rfl rfl rfl rfl⟩
  placeEnd s hn hc hf h := ⟨State.phasesKept_stepClosed.placeEnd s hn hc hf h.1, h.2.placeEnd hc hf⟩
  startFrame s q hq h := ⟨State.phasesKept_stepClosed.startFrame s q hq h.1, h.2.startFrame q hq⟩
  lineBusy s a f h := ⟨State.phasesKept_stepClosed.lineBusy s a f h.1, h.2.congr⟩
  acknowledge s n h1 h2 ha h :=
    ⟨State.phasesKept_stepClosed.acknowledge s n h1 h2 ha h.1, (h.2.ackBelow ha (h1.trans n.le_succ) h2).congr⟩
  nakRound s n h1 h2 ha h :=
    ⟨State.phasesKept_stepClosed.nakRound s n h1 h2 ha h.1,
      (h.2.ackBelow ha h1 h2.le).startRound fun _ => ⟨Nat.le_refl n, h2.le⟩⟩
  setPause s q h := ⟨State.phasesKept_stepClosed.setPause s q h.1, h.2.congr⟩
  commit s epoch ha hw h := ⟨State.phasesKept_stepClosed.commit s epoch ha hw h.1, h.1.2.windowKept_commit epoch hw⟩
  rejected s r b h := ⟨State.phasesKept_stepClosed.rejected s r b h.1, h.2.congr⟩
  ticks s h := ⟨State.phasesKept_stepClosed.ticks s h.1, h.2.congr⟩

/-- Settles O8: the window is kept by each operation that a step is made of; the phases tell where the copier is at work, and
the configuration that a grant goes to a requester with work. -/
theorem everyStepKeepsTheRetransmitWindow : Obligations.EveryStepKeepsTheRetransmitWindow := by
  unfold Obligations.EveryStepKeepsTheRetransmitWindow
  exact fun s t hc hp hw he => (State.windowKept_stepClosed.step s t ⟨⟨hc, hp⟩, hw⟩ he).2

end Sys2Proof.Machine

/-! ## Outbound frames on the line -/

namespace Sys2Proof.Machine

/-! ### Little-endian fields and the CRC-32 (R85, R98) -/

/-- R98: byte `i` of a little-endian field is digit `i` of its number to the base 256. -/
theorem leBytes_eq (k n : Nat) : leBytes k n = (List.range k).map fun i => (BitVec.ofNat 8 (n / 256 ^ i) : Byte) := by
  induction k generalizing n with
  | zero => rfl
  | succ k ih =>
    have digits : ∀ i, n / 256 / 256 ^ i = n / 256 ^ (i + 1) := fun i => by rw [Nat.div_div_eq_div_mul, Nat.pow_succ']
    rw [leBytes, ih, List.range_succ_eq_map, List.map_cons, List.map_map]
    simp only [digits, Nat.pow_zero, Nat.div_one]
    rfl

@[simp] theorem length_leBytes (k n : Nat) : (leBytes k n).length = k := by rw [leBytes_eq]; simp

theorem crcBits_eq (k : Nat) (c : Word32) : crcBits k c = (List.range k).foldl (fun c _ => crcBit c) c := by
  induction k generalizing c with
  | zero => rfl
  | succ k ih => rw [crcBits, ih, List.range_succ_eq_map, List.foldl_cons, List.foldl_map]

/-- R98: the eight bits of a byte, least significant first, join the CRC. -/
theorem crcByte_eq (c : Word32) (b : Byte) :
    crcByte c b = (List.range 8).foldl (fun c _ => crcBit c) (c ^^^ b.setWidth 32) := crcBits_eq 8 _

/-! ### OPEN's descriptor list (R76) -/

theorem Descriptor.length_bytes (d : Descriptor) : d.bytes.length = 16 := by simp [Descriptor.bytes]

theorem Descriptor.bytes_eq (d : Descriptor) :
    d.bytes = leBytes 1 d.window ++ leBytes 1 (match d.kind with | .off => 0 | .image => 1 | .fill => 2) ++ [d.fill, 0] ++
      leBytes 2 d.size ++ [0, 0] ++ leBytes 8 d.base.toNat := by
  unfold Descriptor.bytes
  cases d.kind <;> rfl

theorem length_flatMap_bytes (ds : List Descriptor) : (ds.flatMap Descriptor.bytes).length = 16 * ds.length := by
  induction ds with
  | nil => rfl
  | cons d ds ih => rw [List.flatMap_cons, List.length_append, d.length_bytes, ih, List.length_cons]; omega

/-- R76: the entry of a window with index `i` in OPEN's descriptor list, or none for an OFF window. -/
def windowDescriptor (i : Nat) (w : Window) : List Descriptor :=
  if w.kind = .off then [] else [{ window := i, kind := w.kind, base := w.base, size := w.size, fill := w.fill }]

theorem descriptorsFrom_eq (i : Nat) (table : List Window) :
    descriptorsFrom i table = (table.mapIdx fun j w => windowDescriptor (i + j) w).flatten := by
  induction table generalizing i with
  | nil => rfl
  | cons w ws ih =>
    have head : (if w.enabled then [({ window := i, kind := w.kind, base := w.base, size := w.size, fill := w.fill } :
        Descriptor)] else []) = windowDescriptor i w := by
      by_cases hw : w.kind = .off <;> simp [Window.enabled, windowDescriptor, hw]
    rw [descriptorsFrom, ih, head, List.mapIdx_cons, List.flatten_cons]
    simp only [Nat.add_right_comm i 1, Nat.add_assoc i, Nat.add_zero]

/-! ### Whole frames (R193, 10.9) -/

/-- R98, R193: a frame with the given kind and body, around its check. -/
theorem Frame.bytes_of {f : Frame} {kind length : Nat} {body : List Byte} (hk : f.kindByte = kind) (hb : f.body = body)
    (hl : f.body.length = length) :
    f.bytes = leBytes 1 kind ++ leBytes 2 length ++ body ++
      leBytes 4 (crc32 (leBytes 1 kind ++ leBytes 2 length ++ body)).toNat := by
  subst hk hb hl
  rfl

/-- Settles O41, frame by frame. -/
theorem framesOnTheLine : Obligations.FramesOnTheLine := by
  unfold Obligations.FramesOnTheLine
  intro le framed
  have hle : ∀ k n, le k n = leBytes k n := fun k n => (leBytes_eq k n).symm
  have frame : ∀ (f : Frame) (kind length : Nat) (body : List Byte), f.kindByte = kind → f.body = body →
      f.body.length = length → framed f kind length body := by
    intro f kind length body hk hb hl
    simp only [framed, hle]
    exact ⟨Frame.bytes_of hk hb hl, hb ▸ hl⟩
  refine ⟨fun epoch k ds g => ?_, fun epoch n w c g p hp => ?_, fun epoch n w b size => ?_,
    fun epoch n dataCount fillCount digest => ?_, fun epoch cause => ?_, fun table => ?_, fun bs => ⟨?_, fun c => ?_⟩⟩
  · refine frame _ _ _ _ rfl ?_ ?_
    · simp only [hle]
      rw [Frame.body, funext Descriptor.bytes_eq]
      cases k <;> rfl
    · simp only [Frame.body, List.length_append, length_leBytes, length_flatMap_bytes]
  · refine frame _ _ _ _ rfl ?_ ?_
    · simp only [hle]
      rfl
    · simp only [Frame.body, List.length_append, length_leBytes, hp]
  · refine frame _ _ _ _ rfl ?_ ?_
    · simp only [hle]
      rfl
    · simp only [Frame.body, List.length_append, length_leBytes, List.length_singleton]
  · refine frame _ _ _ _ rfl ?_ ?_
    · simp only [hle]
      rfl
    · simp only [Frame.body, List.length_append, length_leBytes, List.length_singleton]
  · refine frame _ _ _ _ rfl ?_ ?_
    · simp only [hle]
      cases cause <;> rfl
    · simp only [Frame.body, List.length_append, length_leBytes, List.length_singleton]
  · rw [descriptorsFrom_eq]
    simp only [Nat.zero_add]
    rfl
  · rw [crc32, show crcInit = 0xFFFFFFFF by decide]
    rfl
  · exact congrArg (fun f => bs.foldl f c) (funext₂ crcByte_eq)

end Sys2Proof.Machine

/-! ## The replication link: lock and transmission -/

namespace Sys2Proof.Machine

/-! ### Lock (R89 to R91) -/

theorem exec_lockGained_down {s : State} (h : s.lnk.up = false) :
    exec .lockGained s = .next (State.evaluate (State.raise { s with lnk := { s.lnk with up := true } } .linkUp)) :=
  congrArg _ (if_neg (by simp [h]))

theorem exec_lossOfLock_up {s : State} (h : s.lnk.up = true) :
    exec .lossOfLock s = .next
      (State.breakEpoch
        { s with
          lnk := s.lnk.lose
          alert := s.alert.raise .linkDown
          stats := s.stats.count .lockLosses
          out := s.out ++ s.lnk.cutOutput } .linkLost) :=
  congrArg _ (if_pos h)

/-- Settles O42, by the state of the link. -/
theorem lockGainedAndLost : Obligations.LockGainedAndLost := by
  unfold Obligations.LockGainedAndLost
  refine fun s => ⟨fun h => ?_, fun h => ?_, fun h => ?_, fun h => ?_⟩
  · exact congrArg _ (if_pos h)
  · rw [exec_lockGained_down h]
    rfl
  · exact congrArg _ (if_neg (by simp [h]))
  · rw [exec_lossOfLock_up h]
    rfl

/-! ### Which frame starts (R96, R113) -/

theorem Lnk.lineReady_iff (l : Lnk) : l.lineReady = true ↔ l.up = true ∧ l.pauseTimer = 0 ∧ l.tx = none := by
  simp [Lnk.lineReady, and_assoc]

/-- R96: the frame at the transmit point, of all the conditions under which it may start. -/
theorem Lnk.startable_eq_some_iff (l : Lnk) (q : Slot) :
    l.startable = some q ↔
      (l.up = true ∧ l.pauseTimer = 0 ∧ l.tx = none) ∧ l.abandon = none ∧
        l.slots.find? (fun q => decide (q.seq = l.txPt)) = some q ∧ q.st = .ready ∧
        (q.frame.isEnd = true → l.ackPt = q.seq) := by
  unfold Lnk.startable
  rw [← l.lineReady_iff]
  split
  case isTrue h =>
    rw [Bool.and_eq_true, Option.isNone_iff_eq_none] at h
    obtain ⟨hready, hnone⟩ := h
    simp only [Option.filter_eq_some_iff, hready, hnone, true_and, Bool.and_eq_true, Bool.or_eq_true, Bool.not_eq_true',
      decide_eq_true_eq]
    refine and_congr_right fun _ => and_congr_right fun _ => ?_
    cases q.frame.isEnd <;> simp
  case isFalse h =>
    refine iff_of_false nofun ?_
    rintro ⟨hready, hnone, -⟩
    exact h (by simp [hready, hnone])

theorem exec_startTransmission_some {s : State} {q : Slot} (h : s.lnk.startable = some q) :
    exec .startTransmission s = .next (s.startFrame q) := by
  show execStartTransmission s = _
  rw [execStartTransmission, h]

theorem exec_startTransmission_none {s : State} (h : ∀ q, s.lnk.startable ≠ some q) :
    exec .startTransmission s = .next s := by
  show execStartTransmission s = _
  rw [execStartTransmission, Option.eq_none_iff_forall_ne_some.2 h]

/-- R95, R97: what the start of a frame does, in terms of the newest record. -/
theorem State.startFrame_eq {s : State} {r : EpochRecord} {older : List EpochRecord} (q : Slot)
    (h : s.frz.history = r :: older) :
    s.startFrame q =
      { s with
        lnk := s.lnk.start q
        stats := s.stats.count (if q.seq = s.lnk.sentCnt then .framesSent else .framesResent)
        frz := { s.frz with
          history :=
            (if q.seq = s.lnk.sentCnt then { r with framesSent := bump32 r.framesSent }
              else { r with framesResent := bump32 r.framesResent }) :: older }
        out := s.out ++ [.frameStart q.frame.bytes] } := by
  simp only [State.startFrame, Frz.update_cons h, decide_eq_true_eq]

theorem exec_startAbandon_some {s : State} {epoch : Word16} {cause : BreakCause} (h : s.lnk.abandon = some (epoch, cause)) :
    exec .startAbandon s = .next
      (if s.lnk.lineReady then
        { s with
          lnk := { s.lnk with abandon := none, tx := some (.abandon epoch cause) }
          out := s.out ++ [.frameStart (Frame.abandon epoch cause).bytes] }
      else s) := by
  show execStartAbandon s = _
  rw [execStartAbandon, h]

theorem exec_startAbandon_none {s : State} (h : s.lnk.abandon = none) : exec .startAbandon s = .next s := by
  show execStartAbandon s = _
  rw [execStartAbandon, h]

theorem exec_transmissionEnd (s : State) :
    exec .transmissionEnd s = .next
      (if s.lnk.tx.isSome then { s with lnk := { s.lnk with tx := none }, out := s.out ++ [.frameEnd] } else s) := rfl

theorem Frame.isEnd_iff (f : Frame) :
    f.isEnd = true ↔ ∃ epoch n dataCount fillCount digest, f = .closing epoch n dataCount fillCount digest := by
  cases f <;> simp [Frame.isEnd]

/-- Settles O43: a frame starts exactly where one is startable. -/
theorem transmissionOfFrames : Obligations.TransmissionOfFrames := by
  unfold Obligations.TransmissionOfFrames
  intro s ready
  refine ⟨?_, fun h => ?_, fun q hq h => ?_, fun epoch cause ha => ⟨fun h => ?_, fun h => ?_⟩, exec_startAbandon_none,
    fun h => ?_, fun h => ?_, Frame.isEnd_iff⟩
  · intro q r older hready ha hq hst hend hh first
    rw [exec_startTransmission_some ((s.lnk.startable_eq_some_iff q).2 ⟨hready, ha, hq, hst, hend⟩),
      State.startFrame_eq q hh]
    rfl
  · refine exec_startTransmission_none fun q hs => ?_
    obtain ⟨hready, ha, hq, -⟩ := (s.lnk.startable_eq_some_iff q).1 hs
    rcases h with h | h | h
    · exact h hready
    · exact h ha
    · rw [hq] at h
      cases h
  · refine exec_startTransmission_none fun p hs => ?_
    obtain ⟨-, -, hp, hst, hend⟩ := (s.lnk.startable_eq_some_iff p).1 hs
    obtain rfl : q = p := Option.some.inj (hq.symm.trans hp)
    rcases h with h | ⟨he, hA⟩
    · exact h hst
    · exact hA (hend he)
  · rw [exec_startAbandon_some ha, if_pos (s.lnk.lineReady_iff.2 h)]
  · rw [exec_startAbandon_some ha, if_neg (mt s.lnk.lineReady_iff.1 h)]
  · rw [exec_transmissionEnd, if_neg (by simp [h])]
  · rw [exec_transmissionEnd, if_pos (Option.isSome_iff_ne_none.2 h)]

end Sys2Proof.Machine

/-! ## The replication link: inbound frames, rounds and pauses -/

namespace Sys2Proof.Machine

/-! ### Inbound frames while the link is UP (R89, R99, R100) -/

section

variable {s : State} (h : s.lnk.up = true)
include h

theorem State.inbound_up (receive : State → State) : s.inbound receive = receive s := if_pos h

theorem exec_ack_up (epoch : Word16) (n : Word32) : exec (.ack epoch n) s = .next (s.receiveAck epoch n) :=
  congrArg _ (State.inbound_up h _)

theorem exec_nak_up (epoch : Word16) (n : Word32) : exec (.nak epoch n) s = .next (s.receiveNak epoch n) :=
  congrArg _ (State.inbound_up h _)

theorem exec_pause_up (q : Word16) : exec (.pause q) s = .next (s.receivePause q) :=
  congrArg _ (State.inbound_up h _)

theorem exec_commit_up (epoch : Word16) : exec (.commit epoch) s = .next (s.receiveCommit epoch) :=
  congrArg _ (State.inbound_up h _)

theorem exec_reject_up (epoch : Word16) (reason : Byte) :
    exec (.reject epoch reason) s = .next (s.receiveReject epoch reason) :=
  congrArg _ (State.inbound_up h _)

theorem exec_inboundFrameDiscarded_up (f : RawFrame) : exec (.inboundFrameDiscarded f) s = .next (s.receiveRaw f) :=
  congrArg _ (State.inbound_up h _)

end

/-! ### Frames for the current epoch (R101, R102, R106, R107) -/

section

variable {s : State} (h : s.frz.active = true)
include h

theorem State.classOf_current : s.classOf s.lnk.curEpoch = .current := if_pos ⟨h, rfl⟩

theorem State.receiveAck_current (n : Word32) :
    s.receiveAck s.lnk.curEpoch n = s.ackCurrent (adjustEnd s.cap.endSeq n.toNat) := by
  rw [State.receiveAck, State.classOf_current h]

theorem State.receiveNak_current (n : Word32) :
    s.receiveNak s.lnk.curEpoch n = (s.count .naksRcvd).nakCurrent n.toNat := by
  rw [State.receiveNak, State.classOf_current h]

theorem State.receiveCommit_current :
    s.receiveCommit s.lnk.curEpoch =
      if s.lnk.ctl = .awaitCommit then
        State.commitEpoch { s with lnk := s.lnk.acceptCommit s.cap.plan.length s.lnk.curEpoch }
      else s.breakEpoch .linkProtocol := by
  rw [State.receiveCommit, State.classOf_current h]

theorem State.receiveReject_current (reason : Byte) :
    s.receiveReject s.lnk.curEpoch reason =
      State.breakEpoch
        { s with
          lnk := { s.lnk with lastReject := rejectReason reason }
          frz := { s.frz with baseline := s.frz.baseline && decide (rejectReason reason ≠ .noBaseline) } } .rejected := by
  rw [State.receiveReject, State.classOf_current h]

end

/-! ### ACK (R101) -/

theorem State.ackCurrent_below {s : State} {n : Nat} (h : n < s.lnk.ackPt) : s.ackCurrent n = s.count .badFramesRcvd :=
  if_pos h

theorem State.ackCurrent_accepted {s : State} {n : Nat} (h1 : s.lnk.ackPt ≤ n) (h2 : n < s.lnk.sentCnt) :
    s.ackCurrent n = { s with lnk := { s.lnk.ackBelow (n + 1) with retry := 0, ackTimer := 0 } } := by
  rw [State.ackCurrent, if_neg (by omega), if_neg (by omega)]

theorem State.ackCurrent_beyond {s : State} {n : Nat} (h1 : s.lnk.ackPt ≤ n) (h2 : s.lnk.sentCnt ≤ n) :
    s.ackCurrent n = s.breakEpoch .linkProtocol := by
  rw [State.ackCurrent, if_neg (by omega), if_pos h2]

/-- Settles O44, by where the number acknowledged lies. -/
theorem ackOutcomes : Obligations.AckOutcomes := by
  unfold Obligations.AckOutcomes
  intro s n hup ha last m
  have received : exec (.ack s.lnk.curEpoch n) s = .next (s.ackCurrent m) := by
    rw [exec_ack_up hup, State.receiveAck_current ha]
    rfl
  rw [received]
  refine ⟨fun hm => ?_, fun h1 h2 => ?_, fun h1 h2 => ?_⟩
  · rw [State.ackCurrent_below hm]
    rfl
  · rw [State.ackCurrent_accepted h1 h2]
    rfl
  · rw [State.ackCurrent_beyond h1 h2]

/-! ### NAK and rounds (R102, R109, R110) -/

theorem State.nakCurrent_outside {s : State} {n : Nat} (h : n < s.lnk.ackPt ∨ s.lnk.sentCnt ≤ n) :
    s.nakCurrent n = s.breakEpoch .linkProtocol := if_pos h

theorem State.nakCurrent_within {s : State} {n : Nat} (h1 : s.lnk.ackPt ≤ n) (h2 : n < s.lnk.sentCnt) :
    s.nakCurrent n = State.startRound { s with lnk := s.lnk.ackBelow n } n := if_neg (by omega)

theorem exec_ackTimerExpiry (s : State) :
    exec .ackTimerExpiry s = .next
      (if s.lnk.ackRuns && decide (s.lnk.ackTmo.toNat ≤ s.lnk.ackTimer) then s.ackExpire else s) := rfl

theorem Lnk.ackDue_iff (l : Lnk) :
    (l.ackRuns && decide (l.ackTmo.toNat ≤ l.ackTimer)) = true ↔
      (∃ q ∈ l.slots, q.st = .sent) ∧ l.pauseTimer = 0 ∧ l.ackTmo.toNat ≤ l.ackTimer := by
  rw [Bool.and_eq_true, l.ackRuns_iff, decide_eq_true_iff, and_assoc]

/-- Settles O45: a NAK within the window and a due ack timer start a round, which is written out once. -/
theorem nakAndAckTimeoutRounds : Obligations.NakAndAckTimeoutRounds := by
  unfold Obligations.NakAndAckTimeoutRounds
  intro round
  have rounds : ∀ (t : State) (start : Nat), t.startRound start = round t start := fun _ _ => rfl
  refine ⟨rounds, ?_, fun s => ⟨fun h => ?_, fun h => ?_⟩⟩
  · intro s n hup ha u
    have received : exec (.nak s.lnk.curEpoch n) s = .next (u.nakCurrent n.toNat) := by
      rw [exec_nak_up hup, State.receiveNak_current ha]
      rfl
    rw [received]
    refine ⟨fun h => ?_, fun h1 h2 => ?_⟩
    · rw [State.nakCurrent_outside (s := u) h]
    · rw [State.nakCurrent_within (s := u) h1 h2, rounds]
      rfl
  · rw [exec_ackTimerExpiry, if_neg (mt s.lnk.ackDue_iff.1 h)]
  · rw [exec_ackTimerExpiry, if_pos (s.lnk.ackDue_iff.2 h), State.ackExpire, rounds]
    rfl

/-! ### COMMIT (R18, R106) -/

theorem State.commitEpoch_eq {s : State} {r : EpochRecord} {older : List EpochRecord} (h : s.frz.history = r :: older) :
    s.commitEpoch =
      State.evaluate
        { s with
          frz := { s.frz with
            history := { r with state := .committed } :: older
            baseline := s.frz.baseline || decide (r.kindPerformed = .full) }
          maps := { s.maps with img := [] }
          alert := s.alert.raise .epochCommitted
          stats := s.stats.count .epochsCommitted } := by
  rw [State.commitEpoch, Frz.update_cons h, h]
  rfl

/-- Settles O46, by whether the controller awaits the verdict. -/
theorem commitOutcomes : Obligations.CommitOutcomes := by
  unfold Obligations.CommitOutcomes
  intro s r older hup hh hr
  have ha : s.frz.active = true := (Frz.active_cons hh).trans hr
  rw [exec_commit_up hup, State.receiveCommit_current ha]
  refine ⟨fun hc => ?_, fun hc => ?_⟩
  · rw [if_pos hc, State.commitEpoch_eq (s := { s with lnk := s.lnk.acceptCommit _ _ }) hh]
    rfl
  · rw [if_neg hc]

/-! ### Frames of other epochs, and frames that fail the check (R99, R100, R108) -/

section

variable {s : State} {epoch : Word16} (h : ¬(s.frz.active = true ∧ epoch = s.lnk.curEpoch))
include h

theorem State.classOf_eq_foreign_iff : s.classOf epoch = .foreign ↔ ¬(epoch = s.lnk.prevEpoch ∧ epoch ≠ 0) := by
  rw [State.classOf, if_neg h]
  split
  · exact iff_of_false nofun (not_not_intro ‹_›)
  · exact iff_of_true rfl ‹_›

theorem State.classOf_ne_current : s.classOf epoch ≠ .current := by
  rw [State.classOf, if_neg h]
  split <;> exact nofun

/-- R100, R108: a frame that is not for the current epoch is counted if it is stale or no epoch is active, and is a protocol
fault otherwise. -/
theorem State.notCurrent_classOf :
    s.notCurrent (s.classOf epoch) =
      if (epoch = s.lnk.prevEpoch ∧ epoch ≠ 0) ∨ s.frz.active = false then s.count .badFramesRcvd
      else s.breakEpoch .linkProtocol := by
  have fault : (s.classOf epoch = .foreign ∧ s.frz.active = true) ↔
      ¬((epoch = s.lnk.prevEpoch ∧ epoch ≠ 0) ∨ s.frz.active = false) := by
    rw [State.classOf_eq_foreign_iff h, not_or, Bool.not_eq_false]
  simp only [State.notCurrent, fault, ite_not]

/-- R100: an ACK, NAK, COMMIT or REJECT that is not for the current epoch, each alike. -/
theorem State.receive_notCurrent (n : Word32) (reason : Byte) :
    s.receiveAck epoch n = s.notCurrent (s.classOf epoch) ∧ s.receiveNak epoch n = s.notCurrent (s.classOf epoch) ∧
      s.receiveCommit epoch = s.notCurrent (s.classOf epoch) ∧
      s.receiveReject epoch reason = s.notCurrent (s.classOf epoch) := by
  unfold State.receiveAck State.receiveNak State.receiveCommit State.receiveReject
  cases hc : s.classOf epoch with
  | current => exact absurd hc (State.classOf_ne_current h)
  | stale => exact ⟨rfl, rfl, rfl, rfl⟩
  | foreign => exact ⟨rfl, rfl, rfl, rfl⟩

end

/-- R99, R193: the inbound kinds with their lengths. -/
theorem inboundLength_cases {kind : Byte} {n : Nat} (h : inboundLength kind = some n) :
    ((kind = 0x11 ∨ kind = 0x12) ∧ n = 6) ∨ ((kind = 0x13 ∨ kind = 0x14) ∧ n = 2) ∨ (kind = 0x15 ∧ n = 4) := by
  unfold inboundLength at h
  split at h
  · exact .inl ⟨‹_›, (Option.some.inj h).symm⟩
  · split at h
    · exact .inr (.inl ⟨‹_›, (Option.some.inj h).symm⟩)
    · split at h
      · exact .inr (.inr ⟨‹_›, (Option.some.inj h).symm⟩)
      · cases h

theorem RawFrame.passes_iff (f : RawFrame) :
    f.passes = true ↔
      f.check = crc32 f.covered ∧ inboundLength f.kind = some f.length.toNat ∧ f.body.length = f.length.toNat := by
  simp [RawFrame.passes, and_assoc]

theorem State.receiveRaw_discarded {s : State} {f : RawFrame} (h : ¬f.passes = true) :
    s.receiveRaw f = s.count .badFramesRcvd := if_pos (by simpa using h)

/-- Settles O47: frames of other epochs by their class, and frames that do not pass. -/
theorem staleForeignAndDiscardedFrames : Obligations.StaleForeignAndDiscardedFrames := by
  unfold Obligations.StaleForeignAndDiscardedFrames
  intro s hup discarded
  refine ⟨?_, fun f h => ?_⟩
  · intro epoch n reason h outcome
    have counted : s.notCurrent (s.classOf epoch) = outcome := State.notCurrent_classOf h
    obtain ⟨hack, hnak, hcommit, hreject⟩ := State.receive_notCurrent h n reason
    rw [exec_ack_up hup, exec_nak_up hup, exec_commit_up hup, exec_reject_up hup, hack, hnak, hcommit, hreject, counted]
    exact ⟨rfl, rfl, rfl, rfl⟩
  · rw [exec_inboundFrameDiscarded_up hup, State.receiveRaw_discarded]
    · rfl
    · intro hp
      obtain ⟨hcheck, hlen, -⟩ := (RawFrame.passes_iff f).1 hp
      have words : ∀ w : Word16, f.length.toNat = w.toNat → f.length = w := fun w => BitVec.eq_of_toNat_eq
      rcases h with h | ⟨h6, h2, h4⟩
      · exact h hcheck
      · rcases inboundLength_cases hlen with ⟨hk, hl⟩ | ⟨hk, hl⟩ | ⟨hk, hl⟩
        · exact h6 ⟨hk, words 6 hl⟩
        · exact h2 ⟨hk, words 2 hl⟩
        · exact h4 ⟨hk, words 4 hl⟩

/-! ### PAUSE and REJECT (R103, R105, R107) -/

/-- R103: the quantum is 0 as a word or as a number. -/
theorem Lnk.setPause_eq (l : Lnk) (q : Word16) :
    l.setPause q.toNat = { l with pauseTimer := q.toNat, contPause := if q = 0 then 0 else l.contPause } := by
  have zero : q.toNat = 0 ↔ q = 0 := by rw [← BitVec.toNat_inj]; rfl
  simp only [Lnk.setPause, zero]

/-- Settles O48. -/
theorem pauseAndRejectFrames : Obligations.PauseAndRejectFrames := by
  unfold Obligations.PauseAndRejectFrames
  refine fun s hup => ⟨fun q => ?_, ?_⟩
  · rw [exec_pause_up hup, State.receivePause, Lnk.setPause_eq]
    rfl
  · intro reason ha stored
    have hb : (s.frz.baseline && decide (stored ≠ .noBaseline)) =
        if stored = .noBaseline then false else s.frz.baseline := by
      by_cases h : stored = .noBaseline <;> simp [h]
    rw [exec_reject_up hup, State.receiveReject_current ha, ← hb]
    rfl

/-! ### The pause timers and the writes of the link's configuration (R103, R105, R111) -/

theorem Lnk.pauseDue_iff (l : Lnk) :
    l.pauseDue = true ↔ 0 < l.pauseTimer ∧ l.pauseLim ≠ 0 ∧ 1000 * l.pauseLim.toNat ≤ l.contPause := by
  rw [Lnk.pauseDue, Bool.and_eq_true, Bool.and_eq_true, decide_eq_true_iff, decide_eq_true_iff, decide_eq_true_iff, and_assoc]
  rfl

theorem exec_pauseTimerExpiry (s : State) :
    exec .pauseTimerExpiry s = .next (if s.lnk.pauseTimer ≤ 1 then { s with lnk := s.lnk.setPause 0 } else s) := rfl

theorem exec_continuousPauseExpiry (s : State) :
    exec .continuousPauseExpiry s = .next (if s.lnk.pauseDue then s.breakEpoch .pauseLimit else s) := rfl

/-- R111. -/
theorem exec_lnkAckTmoWrite (s : State) (w : WriteLine) (v : Word16) (hw : w.good) (hs : s.hunting) :
    exec (.lnkAckTmoWrite w v) s = .next ((s.accessed 0x066 .invalid).writeAckTmo v) :=
  exec_wordRow s .lnkAckTmo rfl rfl hw hs

/-- R111. -/
theorem exec_lnkRetryLimWrite (s : State) (w : WriteLine) (v : Word16) (hw : w.good) (hs : s.hunting) :
    exec (.lnkRetryLimWrite w v) s = .next ((s.accessed 0x067 .invalid).writeRetryLim v) :=
  exec_wordRow s .lnkRetryLim rfl rfl hw hs

/-- R111. -/
theorem exec_lnkPauseLimWrite (s : State) (w : WriteLine) (v : Word16) (hw : w.good) (hs : s.hunting) :
    exec (.lnkPauseLimWrite w v) s = .next ((s.accessed 0x068 .invalid).writePauseLim v) :=
  exec_wordRow s .lnkPauseLim rfl rfl hw hs

/-- R111: a timeout written is in force at once, and the ack timer may have reached it. -/
theorem State.writeAckTmo_eq {s : State} {v : Word16} (hv : v ≠ 0) :
    s.writeAckTmo v =
      if s.frz.active = true ∧ v.toNat ≤ s.lnk.ackTimer
      then State.ackExpire { s with lnk := { s.lnk with ackTmo := v } }
      else { s with lnk := { s.lnk with ackTmo := v } } := if_neg hv

theorem State.writeRetryLim_applied {s : State} {v : Word16} (h1 : 1 ≤ v.toNat) (h15 : v.toNat ≤ 15) :
    s.writeRetryLim v = { s with lnk := { s.lnk with retryLim := v } } := if_pos ⟨h1, h15⟩

theorem State.writeRetryLim_discarded {s : State} {v : Word16} (h : v = 0 ∨ 15 < v.toNat) : s.writeRetryLim v = s := by
  refine if_neg ?_
  rintro ⟨h1, h15⟩
  rcases h with rfl | h
  · exact absurd h1 (by decide)
  · omega

/-- R105, R111: a limit written is in force at once, and a pause may be past it. -/
theorem State.writePauseLim_eq (s : State) (v : Word16) :
    s.writePauseLim v =
      if Lnk.pauseDue { s.lnk with pauseLim := v } = true
      then State.breakEpoch { s with lnk := { s.lnk with pauseLim := v } } .pauseLimit
      else { s with lnk := { s.lnk with pauseLim := v } } := rfl

/-- Settles O49: the expiries, then the writes, register by register. -/
theorem pauseTimersAndLinkConfiguration : Obligations.PauseTimersAndLinkConfiguration := by
  unfold Obligations.PauseTimersAndLinkConfiguration
  intro pauseDue
  refine ⟨fun s => ⟨fun h => ?_, fun h => ?_, fun h => ?_, fun h => ?_⟩, fun s w v hw hs => ?_⟩
  · rw [exec_pauseTimerExpiry, if_pos h]
    rfl
  · rw [exec_pauseTimerExpiry, if_neg (by omega)]
  · rw [exec_continuousPauseExpiry, if_neg (mt s.lnk.pauseDue_iff.1 h)]
  · rw [exec_continuousPauseExpiry, if_pos (s.lnk.pauseDue_iff.2 h)]
  · rw [exec_lnkAckTmoWrite s w v hw hs, exec_lnkRetryLimWrite s w v hw hs, exec_lnkPauseLimWrite s w v hw hs]
    refine ⟨fun hv => ?_, ?_, fun h => ?_, fun h1 h15 => ?_, ?_⟩
    · exact congrArg _ (if_pos hv)
    · intro hv t
      rw [State.writeAckTmo_eq hv]
      exact ⟨fun h => congrArg _ (if_neg h), fun ha h => congrArg _ (if_pos ⟨ha, h⟩)⟩
    · rw [State.writeRetryLim_discarded h]
    · rw [State.writeRetryLim_applied h1 h15]
      rfl
    · intro u
      rw [State.writePauseLim_eq]
      refine ⟨fun h => ?_, fun h => ?_⟩
      · exact congrArg _ (if_neg (mt u.lnk.pauseDue_iff.1 h))
      · exact congrArg _ (if_pos (u.lnk.pauseDue_iff.2 h))

end Sys2Proof.Machine


/-! ## Induction over steps for invariants that look at the books alone: lists, credits, stalls, journal, tables and numbers -/

namespace Sys2Proof.Machine

/-- `t` has what the invariants on lists, credits, stalls, journal, tables and numbers look at as `s` has it. -/
structure State.SameBooks (s t : State) : Prop where
  st : t.frz.st = s.frz.st := by rfl
  slot : t.frz.slot = s.frz.slot := by rfl
  stall : t.frz.stall = s.frz.stall := by rfl
  history : t.frz.history = s.frz.history := by rfl
  nextEpoch : t.frz.nextEpoch = s.frz.nextEpoch := by rfl
  entries : t.jrn.entries = s.jrn.entries := by rfl
  table : t.win.table = s.win.table := by rfl
  maps : t.maps = s.maps := by rfl
  sp : t.sp = s.sp := by rfl
  queue : t.mp.queue = s.mp.queue := by rfl
  credits : t.mp.credits = s.mp.credits := by rfl
  busy : t.mgmt.busy = s.mgmt.busy := by rfl
  code : t.mgmt.code = s.mgmt.code := by rfl

/-- What a step does to the books, as conditions on a property `X` of states, where `Q` is known to hold. -/
structure EventClosed (Q X : State → Prop) : Prop where
  same : ∀ {s t : State}, s.SameBooks t → X s → X t
  reset : X State.reset
  portReset : ∀ s : State, X s → X { s with sp := s.sp.portReset s.resetting, frz := s.frz.portReset }
  writeCmd : ∀ (s : State) (code : Nat), X s → X (s.writeCmd code)
  breakEpoch : ∀ (s : State) (c : BreakCause), X s → X (s.breakEpoch c)
  stallExpire : ∀ s : State, X s → X s.stallExpire
  freeze : ∀ (s : State) (src : Source) (k : Kind), s.canFreeze = true → X s → X (s.freezePoint src k)
  evaluate : ∀ s : State, X s → X s.evaluate
  commit : ∀ s : State, X s → X s.commitEpoch
  record : ∀ (s : State) (f : EpochRecord → EpochRecord), (∀ r, (f r).number = r.number) →
    X s → X { s with frz := s.frz.update f }
  arriveRead : ∀ (s : State) (q : ReadReq), s.sp.rcred ≠ 0 → X s →
    X { s with sp := { s.sp with rlane := s.sp.rlane ++ [q], rcred := s.sp.rcred - 1 } }
  arriveWrite : ∀ (s : State) (q : WriteReq), s.sp.wcred ≠ 0 → X s →
    X { s with sp := { s.sp with wlane := s.sp.wlane ++ [q], wcred := s.sp.wcred - 1 } }
  popRead : ∀ s : State, s.sp.rlane ≠ [] → X s → X { s with sp := s.sp.popRead s.resetting }
  popWrite : ∀ s : State, s.sp.wlane ≠ [] → s.frz.stall = none → X s → X { s with sp := s.sp.popWrite s.resetting }
  addRead : ∀ (s : State) (r : ReadReq) (c : Option Capture), s.sp.readRoom = true → X s →
    X { s with sp := s.sp.addRead r c }
  straight : ∀ (s : State) (w : WriteReq), s.sp.wlane ≠ [] → s.frz.stall = none → s.sp.writeRoom = true → X s →
    X (s.takeStraight w)
  merge : ∀ (s : State) (w : WriteReq), s.sp.wlane ≠ [] → s.frz.stall = none → X s → X (s.takeMerge w)
  allocate : ∀ (s : State) (w : WriteReq) (i : Nat), s.sp.wlane ≠ [] → s.frz.stall = none →
    s.handling w = .allocate i → X s → X (s.takeAllocate w i)
  exhaust : ∀ (s : State) (w : WriteReq), s.sp.wlane ≠ [] → s.frz.stall = none → s.handling w = .exhaustion →
    s.sp.writeRoom = true → X s → X (s.exhaust w)
  lineWaits : ∀ (s : State) (k : Kind), s.frz.slot = none → X s →
    X { s with frz := { s.frz with slot := some { source := .line, kind := k } } }
  markerWaits : ∀ (s : State) (w : WriteReq) (k : Kind), s.sp.wlane ≠ [] → s.frz.stall = none → s.frz.slot = none →
    s.sp.writeRoom = true → X s →
    X (State.beginStall { s with frz := { s.frz with slot := some { source := .marker, kind := k } } } .marker w)
  send : ∀ s : State, X s → X s.sendToMemory
  grant : ∀ s : State, s.grantPossible = true → Q s → X s →
    X (State.grantTo { s with mp := (Mp.seek s.hasWork arbiterLooks s.mp).won }
      (Mp.seek s.hasWork arbiterLooks s.mp).pos)
  complete : ∀ (s : State) (e : MemEntry) (rest : List MemEntry) (ok : Bool) (data : Block), s.mp.queue = e :: rest →
    e.issued = true → Q s → X s → X ((State.sendToMemory { s with mp := s.mp.retire rest }).handOver e ok data)

namespace EventClosed

variable {Q X : State → Prop} (e : EventClosed Q X)
include e

theorem startRound (s : State) (n : Nat) (h : X s) : X (s.startRound n) := by
  unfold State.startRound
  split
  · exact e.breakEpoch s _ h
  · exact e.same {} h

/-- The operations that a step is made of keep `X` beside a `Q` that they keep. -/
theorem stepClosed (c : StepClosed Q) : StepClosed fun s => Q s ∧ X s where
  writeCmd s code h := ⟨c.writeCmd s code h.1, e.writeCmd s code h.2⟩
  mgmt s g h1 h2 h3 h4 h5 h6 h := ⟨c.mgmt s g h1 h2 h3 h4 h5 h6 h.1, e.same { busy := h5, code := h6 } h.2⟩
  alert s a h := ⟨c.alert s a h.1, e.same {} h.2⟩
  stats s t h := ⟨c.stats s t h.1, e.same {} h.2⟩
  kinds s l m h := ⟨c.kinds s l m h.1, e.same {} h.2⟩
  stallLimit s v h := ⟨c.stallLimit s v h.1, e.same {} h.2⟩
  epochLimit s v h := ⟨c.epochLimit s v h.1, e.same {} h.2⟩
  hwm s v hw h := ⟨c.hwm s v hw h.1, e.same {} h.2⟩
  lwm s v a hw h := ⟨c.lwm s v a hw h.1, e.same {} h.2⟩
  policy s p h := ⟨c.policy s p h.1, e.same {} h.2⟩
  fault s f h := ⟨c.fault s f h.1, e.same {} h.2⟩
  staging s v hv h := ⟨c.staging s v hv h.1, e.same { table := hv } h.2⟩
  ackTmo s v hv h := ⟨c.ackTmo s v hv h.1, e.same {} h.2⟩
  retryLim s v h1 h15 h := ⟨c.retryLim s v h1 h15 h.1, e.same {} h.2⟩
  pauseLim s v h := ⟨c.pauseLim s v h.1, e.same {} h.2⟩
  weights s w hl hd hc h := ⟨c.weights s w hl hd hc h.1, e.same {} h.2⟩
  breakEpoch s b h := ⟨c.breakEpoch s b h.1, e.breakEpoch s b h.2⟩
  stallExpire s h := ⟨c.stallExpire s h.1, e.stallExpire s h.2⟩
  ackExpire s h := ⟨c.ackExpire s h.1, e.startRound (s.count .ackTimeouts) _ (e.same {} h.2)⟩
  pending s cs h := ⟨c.pending s cs h.1, e.same {} h.2⟩
  rx s r h := ⟨c.rx s r h.1, e.same {} h.2⟩
  tickLen s h := ⟨c.tickLen s h.1, e.same {} h.2⟩
  out s o h := ⟨c.out s o h.1, e.same {} h.2⟩
  powerOn straps high cs o := ⟨c.powerOn straps high cs o, e.same {} e.reset⟩
  finalStep s hr h := ⟨c.finalStep s hr h.1, e.same {} e.reset⟩
  portReset s h := ⟨c.portReset s h.1, e.portReset s h.2⟩
  lineSeenLow s b h := ⟨c.lineSeenLow s b h.1, e.same {} h.2⟩
  freeze s src k hf h := ⟨c.freeze s src k hf h.1, e.freeze s src k hf h.2⟩
  evaluate s h := ⟨c.evaluate s h.1, e.evaluate s h.2⟩
  linkUp s h := ⟨c.linkUp s h.1, e.same {} h.2⟩
  lose s h := ⟨c.lose s h.1, e.same {} h.2⟩
  arriveRead s q hc h := ⟨c.arriveRead s q hc h.1, e.arriveRead s q hc h.2⟩
  arriveWrite s q hc h := ⟨c.arriveWrite s q hc h.1, e.arriveWrite s q hc h.2⟩
  popRead s hl h := ⟨c.popRead s hl h.1, e.popRead s hl h.2⟩
  popWrite s hl hs h := ⟨c.popWrite s hl hs h.1, e.popWrite s hl hs h.2⟩
  addRead s r p hr h := ⟨c.addRead s r p hr h.1, e.addRead s r p hr h.2⟩
  straight s w hl hs hr h := ⟨c.straight s w hl hs hr h.1, e.straight s w hl hs hr h.2⟩
  merge s w hl hs hh h := ⟨c.merge s w hl hs hh h.1, e.merge s w hl hs h.2⟩
  allocate s w i hl hs hh h := ⟨c.allocate s w i hl hs hh h.1, e.allocate s w i hl hs hh h.2⟩
  exhaust s w hl hs hh hr h := ⟨c.exhaust s w hl hs hh hr h.1, e.exhaust s w hl hs hh hr h.2⟩
  lineWaits s k hs h := ⟨c.lineWaits s k hs h.1, e.lineWaits s k hs h.2⟩
  markerWaits s w k hl hs hq hr h := ⟨c.markerWaits s w k hl hs hq hr h.1, e.markerWaits s w k hl hs hq hr h.2⟩
  send s h := ⟨c.send s h.1, e.send s h.2⟩
  grant s hg h := ⟨c.grant s hg h.1, e.grant s hg h.1 h.2⟩
  complete s m rest ok data hq hi h := ⟨c.complete s m rest ok data hq hi h.1, e.complete s m rest ok data hq hi h.1 h.2⟩
  placeFill s i hn hc hf h := ⟨c.placeFill s i hn hc hf h.1, e.same {} h.2⟩
  placeEnd s hn hc hf h := ⟨c.placeEnd s hn hc hf h.1, e.same {}
    (e.record s (fun r => { r with digest := some (crcFinal s.cap.digest) }) (fun _ => rfl) h.2)⟩
  startFrame s q hq h :=
    ⟨c.startFrame s q hq h.1, e.same {} (e.record s
      (fun r => if decide (q.seq = s.lnk.sentCnt) then { r with framesSent := bump32 r.framesSent }
        else { r with framesResent := bump32 r.framesResent }) (fun r => by split <;> rfl) h.2)⟩
  lineBusy s a f h := ⟨c.lineBusy s a f h.1, e.same {} h.2⟩
  acknowledge s n h1 h2 ha h := ⟨c.acknowledge s n h1 h2 ha h.1, e.same {} h.2⟩
  nakRound s n h1 h2 ha h :=
    ⟨c.nakRound s n h1 h2 ha h.1, e.startRound { s with lnk := s.lnk.ackBelow n } n (e.same {} h.2)⟩
  setPause s q h := ⟨c.setPause s q h.1, e.same {} h.2⟩
  commit s epoch ha hw h := ⟨c.commit s epoch ha hw h.1, e.commit _ (e.same {} h.2)⟩
  rejected s r b h := ⟨c.rejected s r b h.1, e.same {} h.2⟩
  ticks s h := ⟨c.ticks s h.1, e.same {} h.2⟩

end EventClosed

/-- What holds of every state is kept. -/
theorem StepClosed.always : StepClosed fun _ => True := by
  constructor
  case toWriteClosed => constructor <;> exact fun _ => by intros; trivial
  all_goals exact fun _ => by intros; trivial

end Sys2Proof.Machine


/-! ## Credits, tables, maps, journal and numbers: every step keeps each of them (O6) -/

namespace Sys2Proof.Machine

/-! ### What a step does to the ledger -/

/-- `t` has what credits, tables, maps, journal and numbers are about as `s` has it. -/
structure State.SameLedger (s t : State) : Prop where
  st : t.frz.st = s.frz.st := by rfl
  history : t.frz.history = s.frz.history := by rfl
  nextEpoch : t.frz.nextEpoch = s.frz.nextEpoch := by rfl
  entries : t.jrn.entries = s.jrn.entries := by rfl
  table : t.win.table = s.win.table := by rfl
  maps : t.maps = s.maps := by rfl
  rlane : t.sp.rlane.length = s.sp.rlane.length := by rfl
  rcred : t.sp.rcred = s.sp.rcred := by rfl
  rheld : t.sp.rheld = s.sp.rheld := by rfl
  wlane : t.sp.wlane.length = s.sp.wlane.length := by rfl
  wcred : t.sp.wcred = s.sp.wcred := by rfl
  wheld : t.sp.wheld = s.sp.wheld := by rfl
  queue : t.mp.queue = s.mp.queue := by rfl
  credits : t.mp.credits = s.mp.credits := by rfl

/-- The changes of the ledger that a step is made of, as conditions on a property of states that is about the ledger; each
invariant is about a few of them, and the others leave it as it is. -/
structure LedgerClosed (X : State → Prop) : Prop where
  same : ∀ {s t : State}, s.SameLedger t → X s → X t
  reset : X State.reset
  portReset : ∀ s : State, X s → X { s with sp := s.sp.portReset s.resetting } := by exact fun _ h => h
  arriveRead : ∀ (s : State) (q : ReadReq), s.sp.rcred ≠ 0 → X s →
    X { s with sp := { s.sp with rlane := s.sp.rlane ++ [q], rcred := s.sp.rcred - 1 } } := by exact fun _ _ _ h => h
  arriveWrite : ∀ (s : State) (q : WriteReq), s.sp.wcred ≠ 0 → X s →
    X { s with sp := { s.sp with wlane := s.sp.wlane ++ [q], wcred := s.sp.wcred - 1 } } := by exact fun _ _ _ h => h
  popRead : ∀ s : State, s.sp.rlane ≠ [] → X s → X { s with sp := s.sp.popRead s.resetting } := by
    exact fun _ _ h => h
  popWrite : ∀ s : State, X s → s.sp.wlane ≠ [] → X { s with sp := s.sp.popWrite s.resetting } := by
    exact fun _ h _ => h
  mark : ∀ (s : State) (a : Addr), X s → X { s with maps := s.maps.mark s.win.table a } := by exact fun _ _ h => h
  maps : ∀ (s : State) (m : Maps), X s → m = s.maps.swap ∨ m = s.maps.orBack ∨ m = s.maps.clearImage →
    X { s with maps := m } := by exact fun _ _ h _ => h
  table : ∀ (s : State) (i : Nat) (t : List Window), s.win.replaced i = some t → X s → X (s.setTable t) := by
    exact fun _ _ _ _ h => h
  change : ∀ (s : State) (f : JEntry → JEntry), (∀ e, (f e).block = e.block) → X s →
    X { s with jrn := { s.jrn with entries := s.jrn.entries.map f } } := by exact fun _ _ _ h => h
  allocate : ∀ (s : State) (e : JEntry), s.frz.st = .frozen → s.jrn.find e.block = none →
    s.jrn.entries.length < 2048 → X s → X { s with jrn := { s.jrn with entries := s.jrn.entries ++ [e] } } := by
    exact fun _ _ _ _ _ h => h
  remove : ∀ (s : State) (p : JEntry → Bool), X s →
    X { s with jrn := { s.jrn with entries := s.jrn.entries.filter p } } := by exact fun _ _ h => h
  phase : ∀ (s : State) (z : FreezeState), (z = .idle → s.jrn.entries = []) → X s →
    X { s with frz := { s.frz with st := z } } := by exact fun _ _ _ h => h
  record : ∀ (s : State) (f : EpochRecord → EpochRecord), (∀ r, (f r).number = r.number) → X s →
    X { s with frz := s.frz.update f } := by exact fun _ _ _ h => h
  begin : ∀ (s : State) (src : Source) (k : Kind), X s → X { s with frz := s.frz.beginEpoch src k } := by
    exact fun _ _ _ h => h
  append : ∀ (s : State) (a : MemAccess) (b : Addr), X s → X { s with mp := s.mp.append a b } := by
    exact fun _ _ _ h => h
  send : ∀ (s : State) (q : List MemEntry) (n : Nat),
    n + q.countP MemEntry.issued = s.mp.credits + s.mp.queue.countP MemEntry.issued → X s →
    X { s with mp := { s.mp with queue := q, credits := n } } := by exact fun _ _ _ _ h => h
  retire : ∀ (s : State) (e : MemEntry) (rest : List MemEntry), s.mp.queue = e :: rest → e.issued = true → X s →
    X { s with mp := s.mp.retire rest } := by exact fun _ _ _ _ _ h => h

/-! ### Exhaustion -/

theorem State.handling_exhaustion_nonempty {s : State} {w : WriteReq} (h : s.handling w = .exhaustion) :
    s.frz.st = .frozen ∧ s.jrn.entries ≠ [] := by
  obtain ⟨hf, -, hl⟩ := State.handling_exhaustion h
  exact ⟨hf, fun hn => by rw [hn] at hl; exact absurd hl (by decide)⟩

/-- R21: with entries in the journal a break in FROZEN does not lead to IDLE, so no request takes effect. -/
theorem State.breakEpoch_with_entries {s : State} (c : BreakCause) (hf : s.frz.st = .frozen) (hj : s.jrn.entries ≠ [])
    (hs : s.frz.stall = none) :
    s.breakEpoch c =
      if s.frz.active then (if s.frz.capturing then (s.breakCore c).leaveFrozen else s.breakCore c) else s := by
  have hn : (s.breakCore c).leaveFrozen.frz.stall ≠ some .exhaustion := by simp [Frz.update, hs]
  unfold State.breakEpoch State.breakNow
  rw [State.endExhaustion_of_ne hn]
  split
  · refine State.evaluate_impossible ((State.canFreeze_eq_false _).2 fun hc => ?_)
    have hst := hc.1
    split at hst
    · simp [hj] at hst
    · exact absurd (hf.symm.trans hst) nofun
  · rfl

/-- R43: the break at exhaustion leaves the lanes and lists alone, and no stall. -/
theorem State.breakEpoch_exhaustion {s : State} {w : WriteReq} (c : BreakCause) (h : s.handling w = .exhaustion)
    (hs : s.frz.stall = none) : (s.breakEpoch c).sp = s.sp ∧ (s.breakEpoch c).frz.stall = none := by
  obtain ⟨hf, hj⟩ := State.handling_exhaustion_nonempty h
  rw [State.breakEpoch_with_entries c hf hj hs]
  split
  · split <;> exact ⟨rfl, hs⟩
  · exact ⟨rfl, hs⟩

namespace LedgerClosed

variable {X : State → Prop} (c : LedgerClosed X)
include c

/-! ### Takes and the ends of stalls -/

theorem takeStraight (s : State) (w : WriteReq) (hl : s.sp.wlane ≠ []) (h : X s) : X (s.takeStraight w) :=
  c.same {} (c.popWrite _ (c.mark s w.addr h) hl)

theorem update (s : State) (b : Addr) (f : JEntry → JEntry) (hf : ∀ e, (f e).block = e.block) (h : X s) :
    X { s with jrn := s.jrn.update b f } :=
  c.change s (fun e => if e.block = b then f e else e) (fun e => by split <;> simp [hf]) h

theorem takeMerge (s : State) (w : WriteReq) (hl : s.sp.wlane ≠ []) (h : X s) : X (s.takeMerge w) :=
  have hm := c.update s w.addr (fun e => e.merge w.mask w.block32) (fun _ => rfl) h
  c.same {} (c.popWrite _ (c.mark _ w.addr hm) hl)

theorem takeAllocate (s : State) (w : WriteReq) (i : Nat) (hl : s.sp.wlane ≠ []) (hh : s.handling w = .allocate i)
    (h : X s) : X (s.takeAllocate w i) := by
  obtain ⟨hf, hn, hc⟩ := State.handling_allocate hh
  have ha := c.allocate s (newEntry w i s.frz.epoch) hf hn hc h
  exact c.same {} (c.popWrite _ (c.mark _ w.addr ha) hl)

theorem takePlain (s : State) (w : WriteReq) (hl : s.sp.wlane ≠ []) (h : X s) : X (s.takePlain w) := by
  unfold State.takePlain
  split
  · exact c.takeMerge s w hl h
  · exact c.takeAllocate s w _ hl ‹_› h
  · exact c.takeStraight s w hl h
  · exact c.takeStraight s w hl h

theorem endStallWith (s : State) (take : State → WriteReq → State) (ht : ∀ w, s.sp.wlane ≠ [] → X (take s w)) (h : X s) :
    X (s.endStallWith take) := by
  unfold State.endStallWith
  split
  · rename_i e
    exact ht _ (by simp [e])
  · exact c.same {} h

theorem endPlain (s : State) (h : X s) : X (s.emptySlot.endStallWith State.takePlain) :=
  have he : X s.emptySlot := c.same {} h
  c.endStallWith _ _ (fun w hl => c.takePlain _ w hl he) he

theorem cancelSlot (s : State) (h : X s) : X s.cancelSlot := by
  unfold State.cancelSlot
  split
  · exact h
  · split
    · exact c.endPlain s h
    · exact c.same {} h
    · exact c.same {} h

theorem endExhaustion (s : State) (h : X s) : X s.endExhaustion := by
  unfold State.endExhaustion
  split
  · exact c.endStallWith s _ (fun w hl => c.takeStraight s w hl h) h
  · exact h

/-! ### The events of an epoch -/

theorem leaveFrozen (s : State) (h : X s) : X s.leaveFrozen := by
  have hp := c.phase s (if s.jrn.entries.isEmpty then .idle else .draining)
    (fun hi => by by_contra hn; simp [hn] at hi) h
  exact c.same {} (c.change _ (fun e => if e.st = .held then { e with st := .pending } else e)
    (fun e => by split <;> rfl) hp)

theorem captureComplete (s : State) (h : X s) : X s.captureComplete := by
  have hr := c.record s (fun r => { r with state := .sending, duration := s.frz.durationNow }) (fun _ => rfl) h
  exact c.endExhaustion _ (c.same {} (c.leaveFrozen _ hr))

theorem beginEpoch (s : State) (src : Source) (k : Kind) (h : X s) : X (s.beginEpoch src k) := by
  obtain ⟨n, more, e, -⟩ := s.beginEpoch_eq src k
  rw [e]
  exact c.same {} (c.maps _ _ (c.begin s src k h) (.inl rfl))

theorem freezePoint (s : State) (src : Source) (k : Kind) (h : X s) : X (s.freezePoint src k) := by
  have hb := c.beginEpoch s src k h
  unfold State.freezePoint
  simp only
  split
  · exact hb
  · exact c.captureComplete _ hb

theorem takeEffect (s : State) (q : FreezeReq) (h : X s) : X (s.takeEffect q) := by
  have he : X s.emptySlot := c.same {} h
  unfold State.takeEffect
  split
  · exact c.same {} (c.freezePoint _ .mgmt q.kind he)
  · exact c.freezePoint _ _ _ he
  · exact c.freezePoint _ _ _ (c.endStallWith _ _ (fun w hl => c.takeStraight _ w hl he) he)

theorem evaluate (s : State) (h : X s) : X s.evaluate := by
  unfold State.evaluate
  split
  · split
    · exact c.takeEffect s _ h
    · exact h
  · exact h

theorem breakNow (s : State) (b : BreakCause) (h : X s) : X (s.breakNow b) := by
  have hb : X (s.breakCore b) :=
    c.same {} (c.maps _ _ (c.record s
      (fun r => { r with state := .broken, cause := some b,
                         duration := if s.frz.capturing then s.frz.durationNow else r.duration }) (fun _ => rfl) h)
      (.inr (.inl rfl)))
  unfold State.breakNow
  split
  · exact c.endExhaustion _ (c.leaveFrozen _ hb)
  · exact hb

theorem breakEpoch (s : State) (b : BreakCause) (h : X s) : X (s.breakEpoch b) := by
  unfold State.breakEpoch
  split
  · exact c.evaluate _ (c.breakNow s b h)
  · exact h

theorem commitEpoch (s : State) (h : X s) : X s.commitEpoch :=
  c.evaluate _ (c.same {} (c.maps _ _ (c.record s (fun r => { r with state := .committed }) (fun _ => rfl) h)
    (.inr (.inr rfl))))

theorem stallExpire (s : State) (h : X s) : X s.stallExpire := by
  unfold State.stallExpire
  split
  · exact c.same {} (c.endPlain s h)
  · exact c.breakEpoch s _ h
  · exact h

theorem exhaust (s : State) (w : WriteReq) (hl : s.sp.wlane ≠ []) (hs : s.frz.stall = none)
    (hh : s.handling w = .exhaustion) (h : X s) : X (s.exhaust w) := by
  unfold State.exhaust
  split
  · have hsp := (State.breakEpoch_exhaustion .journalFull hh hs).1
    exact c.takeStraight _ w (by rwa [hsp]) (c.breakEpoch s _ h)
  · exact c.same {} h

/-! ### Memory -/

theorem sendToMemory (s : State) (h : X s) : X s.sendToMemory := by
  obtain ⟨q, n, o, e, hn, -⟩ := s.sendToMemory_eq
  rw [e]
  exact c.same {} (c.send s q n hn h)

theorem endDrain (s : State) (h : X s) : X s.endDrain := by
  rw [State.endDrain_eq]
  split
  · rename_i hd
    exact c.evaluate _ (c.same {} (c.phase s .idle (fun _ => hd.2) h))
  · exact h

theorem removed (s : State) (b : Addr) (h : X s) : X { s with jrn := s.jrn.remove b } :=
  c.same {} (c.remove s (fun e => decide (e.block ≠ b)) h)

theorem drainDone (s : State) (e : JEntry) (ok : Bool) (h : X s) : X (s.drainDone e ok) := by
  unfold State.drainDone
  split
  · split
    · exact c.update s _ _ (fun _ => rfl) h
    · exact c.endDrain _ (c.removed s _ h)
  · split
    · exact c.update s _ _ (fun _ => rfl) h
    · exact c.endDrain _ (c.same {} (c.removed s e.block h))

theorem storeRead (s : State) (q : Slot) (b : Block) (h : X s) : X (s.storeRead q b) :=
  c.same {} (c.record s (fun r => { r with granules :=
    r.granules + (if decide ((q.receive b).st = .ready) && q.frame.lastChunk then 1 else 0) }) (fun _ => rfl) h)

theorem copierDone (s : State) (ok : Bool) (data : Block) (h : X s) : X (s.copierDone ok data) := by
  unfold State.copierDone State.copierReadDone
  simp only
  split
  · exact c.same {} h
  · split
    · split
      · split
        · exact c.captureComplete _ (c.storeRead _ _ _ (c.same {} h))
        · exact c.storeRead _ _ _ (c.same {} h)
      · exact c.same {} h
    · exact c.breakEpoch _ _ (c.same {} h)

theorem completionClosed : CompletionClosed X where
  alert _ _ h := c.same {} h
  stats _ _ h := c.same {} h
  out _ _ h := c.same {} h
  retire s e rest hq hi h := c.retire s e rest hq hi h
  send s h := c.sendToMemory s h
  dropRead _ _ h := c.same {} h
  dropWrite _ _ h := c.same {} h
  drainDone s _ e ok _ h := c.drainDone s e ok h
  copierDone s ok data h := c.copierDone s ok data h

theorem grantTo (s : State) (r : Requester) (h : X s) : X (s.grantTo r) := by
  unfold State.grantTo
  split
  · split
    · exact c.same {} (c.append s _ _ h)
    · exact h
  · split
    · rename_i e _
      exact c.append _ _ _ (c.update s e.block JEntry.issue (fun _ => rfl) h)
    · exact h
  · obtain ⟨reads, pos, slots, e⟩ := s.copierIssue_eq
    rw [e]
    exact c.same {} (c.append s .copier s.copierIssue.2 h)

theorem arbitrate (s : State) (work : Requester → Bool) (k : Nat) (h : X s) :
    X { s with mp := (Mp.seek work k s.mp).won } := by
  obtain ⟨pos, n, cur, hs, -⟩ := Mp.seek_eq work k s.mp
  obtain ⟨pos', n', cur', hw, -⟩ := (Mp.seek work k s.mp).won_eq
  rw [hw, hs]
  exact c.same {} h

/-! ### Every step -/

theorem commandClosed : CommandClosed X where
  mgmt _ _ _ _ _ _ h := c.same {} h
  alert _ _ h := c.same {} h
  stats _ _ h := c.same {} h
  resetting _ h := c.same {} h
  baseline _ h := c.same {} h
  slot _ _ h := c.same {} h
  staging _ _ hv h := c.same { table := hv } h
  table s i t _ _ ht h := c.table s i t ht h
  freezePoint s k _ h := c.freezePoint s .mgmt k h
  cancelSlot s h := c.cancelSlot s h
  breakEpoch s b h := c.breakEpoch s b h

theorem eventClosed (Q : State → Prop) : EventClosed Q X where
  same e h := c.same
    { st := e.st, history := e.history, nextEpoch := e.nextEpoch, entries := e.entries, table := e.table, maps := e.maps,
      rlane := by rw [e.sp], rcred := by rw [e.sp], rheld := by rw [e.sp], wlane := by rw [e.sp],
      wcred := by rw [e.sp], wheld := by rw [e.sp], queue := e.queue, credits := e.credits } h
  reset := c.reset
  portReset s h := c.same {} (c.portReset s h)
  writeCmd s code h := c.commandClosed.writeCmd s code h
  breakEpoch s b h := c.breakEpoch s b h
  stallExpire s h := c.stallExpire s h
  freeze s src k _ h := c.freezePoint s src k h
  evaluate s h := c.evaluate s h
  commit s h := c.commitEpoch s h
  record s f hf h := c.record s f hf h
  arriveRead s q hc h := c.arriveRead s q hc h
  arriveWrite s q hc h := c.arriveWrite s q hc h
  popRead s hl h := c.popRead s hl h
  popWrite s hl _ h := c.popWrite s h hl
  addRead _ _ _ _ h := c.same {} h
  straight s w hl _ _ h := c.takeStraight s w hl h
  merge s w hl _ h := c.takeMerge s w hl h
  allocate s w i hl _ hh h := c.takeAllocate s w i hl hh h
  exhaust s w hl hs hh _ h := c.exhaust s w hl hs hh h
  lineWaits _ _ _ h := c.same {} h
  markerWaits _ _ _ _ _ _ _ h := c.same {} h
  send s h := c.sendToMemory s h
  grant s _ _ h := c.grantTo _ _ (c.arbitrate s _ _ h)
  complete s e rest ok data hq hi _ h := c.completionClosed.complete s e rest ok data hq hi h

theorem step {s t : State} (h : X s) (he : Machine.step s = .next t) : X t :=
  (((c.eventClosed fun _ => True).stepClosed .always).step s t ⟨trivial, h⟩ he).2

end LedgerClosed
end Sys2Proof.Machine


namespace Sys2Proof.Machine

/-! ### Credits of the lanes and of the memory port (R117, R140) -/

/-- R117: a request that leaves its lane gives its credit back or has it withheld. -/
theorem Sp.popWrite_sum {p : Sp} (withhold : Bool) (hl : p.wlane ≠ []) :
    (p.popWrite withhold).wcred + (p.popWrite withhold).wlane.length + (p.popWrite withhold).wheld =
      p.wcred + p.wlane.length + p.wheld := by
  obtain ⟨w, rest, hw⟩ := List.exists_cons_of_ne_nil hl
  cases withhold <;> simp [Sp.popWrite, hw] <;> omega

theorem Sp.popRead_sum {p : Sp} (withhold : Bool) (hl : p.rlane ≠ []) :
    (p.popRead withhold).rcred + (p.popRead withhold).rlane.length + (p.popRead withhold).rheld =
      p.rcred + p.rlane.length + p.rheld := by
  obtain ⟨r, rest, hr⟩ := List.exists_cons_of_ne_nil hl
  cases withhold <;> simp [Sp.popRead, hr] <;> omega

theorem State.creditsKept_ledgerClosed : LedgerClosed State.creditsKept where
  same e h := by rwa [State.creditsKept, e.rcred, e.rlane, e.rheld, e.wcred, e.wlane, e.wheld]
  reset := by decide
  portReset s _ := by cases hr : s.resetting <;> simp [State.creditsKept, Sp.portReset, Config.laneDepth]
  arriveRead s q hc h := by
    obtain ⟨hr, hw⟩ := h
    refine ⟨?_, hw⟩
    simp only [List.length_append, List.length_singleton]
    omega
  arriveWrite s q hc h := by
    obtain ⟨hr, hw⟩ := h
    refine ⟨hr, ?_⟩
    simp only [List.length_append, List.length_singleton]
    omega
  popRead s hl h := ⟨(s.sp.popRead_sum s.resetting hl).trans h.1, h.2⟩
  popWrite s h hl := ⟨h.1, (s.sp.popWrite_sum s.resetting hl).trans h.2⟩

theorem State.memCreditsKept_ledgerClosed : LedgerClosed State.memCreditsKept where
  same e h := by rwa [State.memCreditsKept, e.credits, e.queue]
  reset := by decide
  append s a b h := by simpa [State.memCreditsKept, Mp.append] using h
  send s q n hn h := hn.trans h
  retire s e rest hq hi h := by
    rw [State.memCreditsKept, hq, List.countP_cons_of_pos hi] at h
    show s.mp.credits + 1 + rest.countP MemEntry.issued = 16
    omega

/-! ### The window table and the granule maps (R58, R59, R62, R67 to R70) -/

/-- R59: the offsets of the table that a WINDOW_WRITE stores are running sums. -/
theorem State.tableKept_replaced {s : State} {i : Nat} {t : List Window} (h : s.win.replaced i = some t)
    (hs : s.tableKept) : (s.setTable t).tableKept := by
  obtain ⟨d, -, rfl, -⟩ := Win.replaced_eq h
  refine ⟨?_, fun j w hw => ?_⟩
  · show (assignOffsets 0 (s.win.table.set i d)).length = 8
    rw [assignOffsets_length, List.length_set, hs.1]
  · have ho := assignOffsets_get _ 0 j w hw
    rwa [Nat.zero_add] at ho

theorem State.tableKept_ledgerClosed : LedgerClosed State.tableKept where
  same e h := by rwa [State.tableKept, e.table]
  reset := State.tableKept_reset
  table s i t ht h := State.tableKept_replaced ht h

theorem State.windowsKept_ledgerClosed : LedgerClosed State.windowsKept where
  same e h := by rwa [State.windowsKept, e.table]
  reset := State.windowsKept_reset
  table s i t ht h := State.windowsKept_replaced ht h

/-- R67: marks that are in ascending order, each in an IMAGE window. -/
def MarksKept (table : List Window) (m : List Nat) : Prop :=
  m.Pairwise (· < ·) ∧ ∀ p ∈ m, ∃ w ∈ table, w.kind = .image ∧ w.mapOffset ≤ p ∧ p < w.mapOffset + w.size

theorem State.mapsKept_iff (s : State) :
    s.mapsKept ↔ MarksKept s.win.table s.maps.coll ∧ MarksKept s.win.table s.maps.img := by
  simp only [State.mapsKept, List.forall_mem_cons, List.not_mem_nil, false_imp_iff, implies_true, and_true]
  rfl

theorem MarksKept.nil (table : List Window) : MarksKept table [] := ⟨.nil, nofun⟩

/-- R67: a mark that joins an ascending list keeps its order. -/
theorem pairwise_insertMark (p : Nat) {m : List Nat} (h : m.Pairwise (· < ·)) : (insertMark p m).Pairwise (· < ·) := by
  induction m with
  | nil => exact List.pairwise_singleton _ _
  | cons q qs ih =>
    obtain ⟨hq, hqs⟩ := List.pairwise_cons.1 h
    unfold insertMark
    split
    · rename_i hp
      exact List.pairwise_cons.2 ⟨List.forall_mem_cons.2 ⟨hp, fun x hx => hp.trans (hq x hx)⟩, h⟩
    · split
      · exact h
      · refine List.pairwise_cons.2 ⟨fun x hx => ?_, ih hqs⟩
        rcases (mem_insertMark p x qs).1 hx with rfl | hx
        · omega
        · exact hq x hx

theorem MarksKept.insertMark {table : List Window} {m : List Nat} (h : MarksKept table m) {p : Nat}
    (hp : ∃ w ∈ table, w.kind = .image ∧ w.mapOffset ≤ p ∧ p < w.mapOffset + w.size) :
    MarksKept table (insertMark p m) := by
  refine ⟨pairwise_insertMark p h.1, fun q hq => ?_⟩
  rcases (mem_insertMark p q m).1 hq with rfl | hq
  · exact hp
  · exact h.2 q hq

theorem MarksKept.unionMarks {table : List Window} {a b : List Nat} (ha : MarksKept table a) (hb : MarksKept table b) :
    MarksKept table (unionMarks a b) := by
  refine ⟨?_, fun q hq => ((mem_unionMarks q a b).1 hq).elim (ha.2 q) (hb.2 q)⟩
  clear ha
  induction a with
  | nil => exact hb.1
  | cons p ps ih => exact pairwise_insertMark p ih

/-- R65: the window found for an address is one of the table and contains it. -/
theorem findWindowFrom_contains {i j : Nat} {a : Addr} {ws : List Window} {w : Window}
    (h : findWindowFrom i a ws = some (j, w)) : w ∈ ws ∧ w.contains a = true := by
  induction ws generalizing i with
  | nil => cases h
  | cons x xs ih =>
    unfold findWindowFrom at h
    split at h
    · cases h
      exact ⟨List.mem_cons_self, ‹_›⟩
    · obtain ⟨hm, hc⟩ := ih h
      exact ⟨List.mem_cons_of_mem _ hm, hc⟩

/-- R66: the IMAGE window found for an address. -/
theorem imageWindow_contains {table : List Window} {a : Addr} {i : Nat} {w : Window}
    (h : imageWindow table a = some (i, w)) : w ∈ table ∧ w.kind = .image ∧ w.contains a = true := by
  unfold imageWindow at h
  split at h
  · rename_i hf
    split at h
    · cases h
      obtain ⟨hm, hc⟩ := findWindowFrom_contains hf
      exact ⟨hm, ‹_›, hc⟩
    · cases h
  · cases h

/-- R59: the map position of an address of a window lies within the window's part of the maps. -/
theorem Window.position_within {w : Window} {a : Addr} (h : w.contains a = true) :
    w.mapOffset ≤ w.position a ∧ w.position a < w.mapOffset + w.size := by
  obtain ⟨-, hb, he⟩ := (w.contains_iff a).1 h
  unfold Window.position
  omega

/-- R68: a granule marked is that of an IMAGE window. -/
theorem MarksKept.mark {table : List Window} {m : Maps} (h : MarksKept table m.coll) (a : Addr) :
    MarksKept table (m.mark table a).coll := by
  unfold Maps.mark
  split
  · rename_i hi
    obtain ⟨hm, hk, hc⟩ := imageWindow_contains hi
    exact h.insertMark ⟨_, hm, hk, Window.position_within hc⟩
  · exact h

theorem State.mapsKept_ledgerClosed : LedgerClosed State.mapsKept where
  same e h := by rwa [State.mapsKept, e.table, e.maps]
  reset := State.mapsKept_reset
  mark s a h := by
    rw [State.mapsKept_iff] at h ⊢
    exact ⟨h.1.mark a, by simpa using h.2⟩
  maps s m h hm := by
    rw [State.mapsKept_iff] at h ⊢
    obtain ⟨hc, hi⟩ := h
    rcases hm with rfl | rfl | rfl
    · exact ⟨.nil _, hc⟩
    · exact ⟨hi.unionMarks hc, .nil _⟩
    · exact ⟨hc, .nil _⟩
  table s i t _ _ := (State.mapsKept_iff _).2 ⟨.nil _, .nil _⟩

/-! ### The journal and the epoch numbers (R1, R5, R26, R31) -/

theorem State.journalKept_ledgerClosed : LedgerClosed State.journalKept where
  same e h := by rwa [State.journalKept, e.entries, e.st]
  reset := ⟨.nil, by decide, fun _ => rfl⟩
  change s f hf h := by
    obtain ⟨hn, hl, hi⟩ := h
    have hb : (s.jrn.entries.map f).map JEntry.block = s.jrn.entries.map JEntry.block := by
      rw [List.map_map]
      exact List.map_congr_left fun e _ => hf e
    exact ⟨hb ▸ hn, by simpa using hl, fun hz => by simpa using hi hz⟩
  allocate s e hf hn hl h := by
    have hfresh := (s.jrn.find_eq_none e.block).1 hn
    refine ⟨?_, by simpa using hl, fun hz => by rw [hf] at hz; cases hz⟩
    rw [List.map_append, List.nodup_append]
    exact ⟨h.1, List.nodup_singleton _, fun a ha b hb => by rintro rfl; exact hfresh (List.mem_singleton.1 hb ▸ ha)⟩
  remove s p h := by
    obtain ⟨hn, hl, hi⟩ := h
    exact ⟨hn.sublist (List.filter_sublist.map _), (List.length_filter_le _ _).trans hl,
      fun hz => by show s.jrn.entries.filter p = []; rw [hi hz]; rfl⟩
  phase s z hz h := ⟨h.1, h.2.1, hz⟩
  begin s src k h := ⟨h.1, h.2.1, nofun⟩

theorem Frz.mem_update {z : Frz} {f : EpochRecord → EpochRecord} {r : EpochRecord} (h : r ∈ (z.update f).history) :
    ∃ x ∈ z.history, r = x ∨ r = f x := by
  cases hh : z.history with
  | nil => simp [Frz.update, hh] at h
  | cons x older =>
    rw [Frz.update_cons hh] at h
    rcases List.mem_cons.1 h with rfl | h
    · exact ⟨x, List.mem_cons_self, .inr rfl⟩
    · exact ⟨r, List.mem_cons_of_mem _ h, .inl rfl⟩

theorem Frz.length_update (z : Frz) (f : EpochRecord → EpochRecord) :
    (z.update f).history.length = z.history.length := by
  cases h : z.history <;> simp [Frz.update, h]

theorem State.numbersKept_ledgerClosed : LedgerClosed State.numbersKept where
  same e h := by rwa [State.numbersKept, e.nextEpoch, e.history]
  reset := by decide
  record s f hf h := by
    obtain ⟨hn, hr, hl⟩ := h
    refine ⟨hn, fun r hm => ?_, (s.frz.length_update f).trans_le hl⟩
    obtain ⟨x, hx, rfl | rfl⟩ := Frz.mem_update hm
    · exact hr _ hx
    · rw [hf]
      exact hr x hx
  begin s src k h := by
    obtain ⟨hn, hr, -⟩ := h
    refine ⟨nextNumber_ne_zero _, fun r hm => ?_, List.length_take_le _ _⟩
    rcases List.mem_cons.1 (List.mem_of_mem_take hm) with rfl | hm
    · exact hn
    · exact hr r hm

/-- Settles O6, invariant by invariant: each is about a few of the changes of the ledger that a step is made of. -/
theorem everyStepKeepsCreditsTablesAndNumbers : Obligations.EveryStepKeepsCreditsTablesAndNumbers := by
  unfold Obligations.EveryStepKeepsCreditsTablesAndNumbers
  intro s t he
  exact ⟨fun h => State.creditsKept_ledgerClosed.step h he, fun h => State.memCreditsKept_ledgerClosed.step h he,
    fun h => State.configKept_stepClosed.step s t h he, fun h => State.tableKept_ledgerClosed.step h he,
    fun h => State.windowsKept_ledgerClosed.step h he, fun h => State.mapsKept_ledgerClosed.step h he,
    fun h => State.journalKept_ledgerClosed.step h he, fun h => State.numbersKept_ledgerClosed.step h he⟩

end Sys2Proof.Machine


/-! ## The system port: arrivals and takes -/

namespace Sys2Proof.Machine

/-! ### Arrivals (R117, R118) -/

theorem exec_requestArrives_read (s : State) (r : ReadReq) :
    exec (.requestArrives (.read r)) s = .next (if s.sp.rcred = 0 then s.overrun
      else { s with sp := { s.sp with rlane := s.sp.rlane ++ [r], rcred := s.sp.rcred - 1 } }) := rfl

theorem exec_requestArrives_write (s : State) (w : WriteReq) :
    exec (.requestArrives (.write w)) s = .next (if s.sp.wcred = 0 then s.overrun
      else { s with sp := { s.sp with wlane := s.sp.wlane ++ [w], wcred := s.sp.wcred - 1 } }) := rfl

/-- Settles O27, lane by lane and by whether the lane has a credit. -/
theorem requestsArriveOrOverrun : Obligations.RequestsArriveOrOverrun := by
  unfold Obligations.RequestsArriveOrOverrun
  intro s overrun
  refine ⟨fun r => ?_, fun w => ?_⟩
  · rw [exec_requestArrives_read]
    exact ⟨fun h => congrArg _ (if_pos h), fun h => congrArg _ (if_neg h)⟩
  · rw [exec_requestArrives_write]
    exact ⟨fun h => congrArg _ (if_pos h), fun h => congrArg _ (if_neg h)⟩

/-! ### A request leaves its lane (R117) -/

theorem Sp.popRead_cons {p : Sp} {r : ReadReq} {rest : List ReadReq} (h : p.rlane = r :: rest) (withhold : Bool) :
    p.popRead withhold =
      { p with
        rlane := rest
        rcred := p.rcred + if withhold then 0 else 1
        rheld := p.rheld + if withhold then 1 else 0 } := by rw [Sp.popRead, h, List.tail_cons]

theorem Sp.popWrite_cons {p : Sp} {w : WriteReq} {rest : List WriteReq} (h : p.wlane = w :: rest) (withhold : Bool) :
    p.popWrite withhold =
      { p with
        wlane := rest
        wcred := p.wcred + if withhold then 0 else 1
        wheld := p.wheld + if withhold then 1 else 0 } := by rw [Sp.popWrite, h, List.tail_cons]

/-- R117 does not look at the outstanding records and the live queue. -/
theorem Sp.popWrite_straight {p : Sp} {w : WriteReq} {rest : List WriteReq} (h : p.wlane = w :: rest) (withhold : Bool)
    (writes : List WriteRec) (live : List LiveEntry) :
    Sp.popWrite { p with writes := writes, live := live } withhold =
      { p with
        wlane := rest
        wcred := p.wcred + if withhold then 0 else 1
        wheld := p.wheld + if withhold then 1 else 0
        writes := writes
        live := live } := Sp.popWrite_cons (p := { p with writes := writes, live := live }) h withhold

/-! ### The examination of a READ (R119, R121, R123, R124) -/

theorem ReadReq.formatError_iff (r : ReadReq) :
    r.formatError = true ↔ r.len.toNat = 0 ∨ 32 < r.len.toNat ∨ 32 < r.addr.toNat % 32 + r.len.toNat := by
  unfold ReadReq.formatError
  rw [Bool.or_eq_true, Bool.or_eq_true, decide_eq_true_iff, decide_eq_true_iff, decide_eq_true_iff, or_assoc]
  rfl

theorem exec_takeRead_nil {s : State} (h : s.sp.rlane = []) : exec .takeRead s = .next s := by
  show execTakeRead s = _
  simp only [execTakeRead, h]

theorem exec_takeRead_cons {s : State} {r : ReadReq} {rest : List ReadReq} (h : s.sp.rlane = r :: rest) :
    exec .takeRead s = .next (s.examineRead r) := by
  show execTakeRead s = _
  simp only [execTakeRead, h]

section

variable {s : State} {r : ReadReq}

theorem State.examineRead_formatError (h : r.formatError = true) : s.examineRead r = s.readFormatError r := if_pos h

variable (hf : ¬r.formatError = true)
include hf

theorem State.examineRead_tagError (h : s.sp.pairHeld r.initiator r.tag = true) :
    s.examineRead r = s.readTagError r := by
  rw [State.examineRead, if_neg hf, if_pos h]

variable (hp : s.sp.pairHeld r.initiator r.tag = false)
include hp

theorem State.examineRead_hit (h : s.captureMask r = r.range) : s.examineRead r = s.readHit r := by
  rw [State.examineRead, if_neg hf, if_neg (by simp [hp]), if_pos (by simp [State.journalHit, h])]

/-- R124: a read that the journal does not answer waits for a record and a live-queue slot. -/
theorem State.examineRead_miss (h : s.captureMask r ≠ r.range) :
    s.examineRead r = if s.sp.readRoom then s.readToMemory r else s := by
  rw [State.examineRead, if_neg hf, if_neg (by simp [hp]), if_neg (by simp [State.journalHit, h])]

end

/-- R117, R128, R130: a read taken to memory has a record with a number not in use. -/
theorem State.readToMemory_eq {s : State} {r : ReadReq} {rest : List ReadReq} (h : s.sp.rlane = r :: rest) :
    s.readToMemory r =
      { s with
        sp := { s.sp with
          rlane := rest
          rcred := s.sp.rcred + if s.resetting then 0 else 1
          rheld := s.sp.rheld + if s.resetting then 1 else 0
          reads := s.sp.reads ++
            [{ id := freshId (s.sp.reads.map ReadRec.id), initiator := r.initiator, tag := r.tag, addr := r.addr,
               len := r.len, silent := false, capture := s.capture r }]
          live := s.sp.live ++ [.read r.block (freshId (s.sp.reads.map ReadRec.id))] }
        out := s.out ++ creditOutput s.resetting .read } := by
  have hl : (s.sp.addRead r (s.capture r)).rlane = r :: rest := h
  rw [State.readToMemory, State.popRead]
  simp only [Sp.popRead_cons hl, List.append_nil]
  rfl

/-- Settles O28, by the checks of R123 in their order. -/
theorem takeReadOutcomes : Obligations.TakeReadOutcomes := by
  unfold Obligations.TakeReadOutcomes
  refine ⟨Sp.pairHeld_iff, fun s => exec_takeRead_nil, fun s r rest hl => ?_⟩
  intro bad popped credit free
  have hpop : s.sp.popRead s.resetting = popped := Sp.popRead_cons hl _
  have hroom : s.sp.readRoom = true ↔ free := s.sp.readRoom_iff
  rw [exec_takeRead_cons hl]
  refine ⟨fun hb => ?_, fun hb hp => ?_, fun hb hp hc => ?_, fun hb hp hc hn => ?_, fun hb hp hc hfree => ?_⟩
  · rw [State.examineRead_formatError ((ReadReq.formatError_iff r).2 hb), ← hpop]
    rfl
  all_goals replace hb : ¬r.formatError = true := mt (ReadReq.formatError_iff r).1 hb
  · rw [State.examineRead_tagError hb hp, ← hpop]
    rfl
  · rw [State.examineRead_hit hb hp hc, ← hpop]
    rfl
  · rw [State.examineRead_miss hb hp hc, if_neg (mt hroom.1 hn)]
  · rw [State.examineRead_miss hb hp hc, if_pos (hroom.2 hfree), State.readToMemory_eq hl]
    exact ⟨_, fun q hq he => freshId_not_mem _ (List.mem_map.2 ⟨q, hq, he⟩), rfl⟩

/-! ### Records of the outstanding write list (R126, R127, R129) -/

theorem map_unclaim_of_unclaimed {rs : List WriteRec} (h : ∀ r ∈ rs, r.claimed = false) :
    rs.map (fun r => { r with claimed := false }) = rs := by
  conv_rhs => rw [← List.map_id rs]
  exact List.map_congr_left fun r hr => by rw [← h r hr]; rfl

theorem countP_claimed_eq_zero {rs : List WriteRec} (h : rs.countP WriteRec.claimed = 0) :
    ∀ r ∈ rs, r.claimed = false := fun r hr => by simpa using List.countP_eq_zero.1 h r hr

/-- The one claimed record, with what stands before and after it. -/
theorem exists_claimed {rs : List WriteRec} (h : rs.countP WriteRec.claimed = 1) :
    ∃ before r after, rs = before ++ r :: after ∧ r.claimed = true ∧ ∀ x ∈ before ++ after, x.claimed = false := by
  induction rs with
  | nil => cases h
  | cons x xs ih =>
    cases hx : x.claimed with
    | true =>
      rw [List.countP_cons_of_pos hx] at h
      exact ⟨[], x, xs, rfl, hx, countP_claimed_eq_zero (by simpa using h)⟩
    | false =>
      rw [List.countP_cons_of_neg (by simp [hx])] at h
      obtain ⟨before, r, after, rfl, hr, ho⟩ := ih h
      exact ⟨x :: before, r, after, rfl, hr, List.forall_mem_cons.2 ⟨hx, ho⟩⟩

/-- R129, R130: with no claim a straight write has a record of a number not in use. -/
theorem Sp.straight_unclaimed {p : Sp} (h : ∀ r ∈ p.writes, r.claimed = false) (w : WriteReq) :
    p.straight w =
      { p with
        writes := p.writes ++ [{ id := freshId (p.writes.map WriteRec.id), initiator := w.initiator, tag := w.tag,
                                 silent := false, claimed := false }]
        live := p.live ++ [.write w.addr w.mask w.block32 (freshId (p.writes.map WriteRec.id))] } := by
  have hany : p.writes.any WriteRec.claimed = false := List.any_eq_false.2 fun r hr => by simp [h r hr]
  have hid : p.writeId = freshId (p.writes.map WriteRec.id) := by
    rw [Sp.writeId, List.find?_eq_none.2 fun r hr => by simp [h r hr]]
  rw [Sp.straight, hany, hid]
  rfl

section

/-! One record `r` is claimed. -/

variable {p : Sp} {before after : List WriteRec} {r : WriteRec} (hw : p.writes = before ++ r :: after)
  (hr : r.claimed = true) (ho : ∀ x ∈ before ++ after, x.claimed = false)
include hw hr ho

/-- R126, R129, R130: the claimed record becomes, in its place, that of the straight write. -/
theorem Sp.straight_claimed (w : WriteReq) :
    p.straight w =
      { p with
        writes := before ++ { r with claimed := false } :: after
        live := p.live ++ [.write w.addr w.mask w.block32 r.id] } := by
  obtain ⟨hb, ha⟩ := List.forall_mem_append.1 ho
  have hany : p.writes.any WriteRec.claimed = true := by rw [hw]; simp [hr]
  have hfind : p.writes.find? WriteRec.claimed = some r := by
    rw [hw, List.find?_append, List.find?_eq_none.2 fun x hx => by simp [hb x hx], Option.none_or,
      List.find?_cons_of_pos hr]
  have hmap : p.writes.map (fun r => { r with claimed := false }) = before ++ { r with claimed := false } :: after := by
    rw [hw, List.map_append, List.map_cons, map_unclaim_of_unclaimed hb, map_unclaim_of_unclaimed ha]
  rw [Sp.straight, if_pos hany, hmap, Sp.writeId, hfind]

/-- R126: the release of the claim removes its record. -/
theorem Sp.releaseClaims_claimed : p.releaseClaims = { p with writes := before ++ after } := by
  obtain ⟨hb, ha⟩ := List.forall_mem_append.1 ho
  have keep : ∀ l : List WriteRec, (∀ x ∈ l, x.claimed = false) → l.filter (fun r => !r.claimed) = l :=
    fun l hl => List.filter_eq_self.2 fun x hx => by simp [hl x hx]
  rw [Sp.releaseClaims, hw, List.filter_append, List.filter_cons_of_neg (by simp [hr]), keep _ hb, keep _ ha]

end

theorem Sp.releaseClaims_unclaimed {p : Sp} (h : ∀ r ∈ p.writes, r.claimed = false) : p.releaseClaims = p := by
  rw [Sp.releaseClaims, List.filter_eq_self.2 fun r hr => by simp [h r hr]]

/-! ### A WRITE taken straight, merged or held (R33 to R35, R68) -/

theorem Frz.endStall_of_none {z : Frz} (h : z.stall = none) : z.endStall = z := by
  rw [Frz.endStall, ← h]

theorem Maps.mark_image {table : List Window} {a : Addr} {i : Nat} {d : Window} (h : imageWindow table a = some (i, d))
    (m : Maps) :
    m.mark table a = { m with coll := insertMark (d.mapOffset + (a.toNat - d.base.toNat) / 4096) m.coll } := by
  simp only [Maps.mark, h]
  rfl

theorem Maps.mark_eq (table : List Window) (a : Addr) (m : Maps) :
    m.mark table a =
      { m with
        coll := match imageWindow table a with
          | some (_, d) => insertMark (d.mapOffset + (a.toNat - d.base.toNat) / 4096) m.coll
          | none => m.coll } := by
  unfold Maps.mark
  cases imageWindow table a with
  | none => rfl
  | some _ => rfl

theorem State.handling_merge {s : State} {w : WriteReq} {i : Nat} {d : Window} {e : JEntry}
    (hi : imageWindow s.win.table w.addr = some (i, d)) (hf : s.jrn.find w.addr = some e) : s.handling w = .merge := by
  simp [State.handling, hi, hf]

theorem State.handling_eq_allocate {s : State} {w : WriteReq} {i : Nat} {d : Window}
    (hi : imageWindow s.win.table w.addr = some (i, d)) (hf : s.jrn.find w.addr = none) (hst : s.frz.st = .frozen)
    (hl : s.jrn.entries.length < 2048) : s.handling w = .allocate i := by
  have hroom : s.jrn.occupancy < Config.journalCapacity := hl
  simp [State.handling, hi, hf, hst, hroom]

theorem State.handling_straight {s : State} {w : WriteReq}
    (h : imageWindow s.win.table w.addr = none ∨ (s.jrn.find w.addr = none ∧ s.frz.st ≠ .frozen)) :
    s.handling w = .straight := by
  unfold State.handling
  split
  · rfl
  · rename_i hi
    obtain ⟨hf, hst⟩ := h.resolve_left (by simp [hi])
    simp [hf, hst]

/-- R35: what a merge leaves in the journal. -/
theorem Jrn.update_merge (j : Jrn) (b : Addr) (mask : ByteMask) (data : Block) :
    (j.update b fun e => e.merge mask data) =
      { j with
        entries := j.entries.map fun e =>
          if e.block = b then
            { e with mask := e.mask ||| mask, data := overlay mask data e.data,
                     redirty := e.redirty || decide (e.st = .issued) }
          else e } := rfl

/-! ### The examination of a WRITE (R120, R121, R125) -/

theorem WriteReq.formatError_iff (w : WriteReq) :
    w.formatError = true ↔
      w.mask = 0 ∨ w.addr.toNat % 32 ≠ 0 ∨ w.data.length ≠ (List.range 32).countP w.mask.getLsbD := by
  unfold WriteReq.formatError
  rw [Bool.or_eq_true, Bool.or_eq_true, decide_eq_true_iff, decide_eq_true_iff, decide_eq_true_iff, or_assoc]
  rfl

theorem exec_takeWrite_idle {s : State} (h : s.sp.wlane = [] ∨ s.frz.stall ≠ none) : exec .takeWrite s = .next s := by
  show execTakeWrite s = _
  unfold execTakeWrite
  split
  · rename_i hl
    rw [if_pos (Option.isSome_iff_ne_none.2 (h.resolve_left (by simp [hl])))]
  · rfl

theorem exec_takeWrite_cons {s : State} {w : WriteReq} {rest : List WriteReq} (h : s.sp.wlane = w :: rest)
    (hs : s.frz.stall = none) : exec .takeWrite s = .next (s.examineWrite w) := by
  show execTakeWrite s = _
  simp [execTakeWrite, h, hs]

theorem State.examineWrite_formatError {s : State} {w : WriteReq} (h : w.formatError = true) :
    s.examineWrite w = s.writeFormatError w := if_pos h

theorem State.examineWrite_tagError {s : State} {w : WriteReq} (hf : ¬w.formatError = true)
    (h : s.sp.pairHeld w.initiator w.tag = true) : s.examineWrite w = s.writeTagError w := by
  rw [State.examineWrite, if_neg hf, if_pos h]

theorem State.examineWrite_plain {s : State} {w : WriteReq} (hf : ¬w.formatError = true)
    (hp : s.sp.pairHeld w.initiator w.tag = false) (hm : w.marker = false) : s.examineWrite w = s.plainWrite w := by
  rw [State.examineWrite, if_neg hf, if_neg (by simp [hp]), if_neg (by simp [hm])]

theorem State.plainWrite_merge {s : State} {w : WriteReq} (h : s.handling w = .merge) :
    s.plainWrite w = s.takeMerge w := by simp only [State.plainWrite, h]

theorem State.plainWrite_allocate {s : State} {w : WriteReq} {i : Nat} (h : s.handling w = .allocate i) :
    s.plainWrite w = s.takeAllocate w i := by simp only [State.plainWrite, h]

theorem State.plainWrite_straight {s : State} {w : WriteReq} (h : s.handling w = .straight) :
    s.plainWrite w = if s.sp.writeRoom then s.takeStraight w else s := by simp only [State.plainWrite, h]

/-- R126, R127: with no stall no record is claimed. -/
theorem State.StallKept.unclaimed {s : State} (h : s.StallKept) (hs : s.frz.stall = none) :
    ∀ r ∈ s.sp.writes, r.claimed = false :=
  countP_claimed_eq_zero (h.claims.trans (if_pos hs))

/-- R41: whether an allocation raises JOURNAL_HIGH. -/
theorem Jrn.raisesHigh_iff (j : Jrn) :
    j.raisesHigh = true ↔ j.armed = true ∧ j.hwm.toNat ≤ j.entries.length + 1 := by
  unfold Jrn.raisesHigh
  rw [Bool.and_eq_true, decide_eq_true_iff]
  rfl

/-- Settles O29: the checks of R123 in their order, then the handling of a plain write by window, entry, freeze state and
occupancy. -/
theorem takeWriteOutcomes : Obligations.TakeWriteOutcomes := by
  unfold Obligations.TakeWriteOutcomes
  refine ⟨fun s => exec_takeWrite_idle, fun j b => rfl, fun p m => ⟨fun q => mem_insertMark p q m, pairwise_insertMark p⟩,
    fun s w rest hl hs => ?_⟩
  intro bad popped credit free
  have hpop : s.sp.popWrite s.resetting = popped := Sp.popWrite_cons hl _
  have hroom : s.sp.writeRoom = true ↔ free := s.sp.writeRoom_iff
  have hstall := Frz.endStall_of_none hs
  rw [exec_takeWrite_cons hl hs]
  refine ⟨fun hb => ?_, fun hb hp => ?_, fun hb hp hm => ?_, fun hk => ⟨?_, ?_, fun hc => ?_⟩⟩
  · rw [State.examineWrite_formatError ((WriteReq.formatError_iff w).2 hb), ← hpop]
    rfl
  · rw [State.examineWrite_tagError (mt (WriteReq.formatError_iff w).1 hb) hp, ← hpop]
    rfl
  · rw [State.examineWrite_plain (mt (WriteReq.formatError_iff w).1 hb) hp hm]
  · intro i d e hi hf
    rw [State.plainWrite_merge (State.handling_merge hi hf), State.takeMerge, hstall, Maps.mark_image hi,
      Sp.releaseClaims_unclaimed (hk.unclaimed hs), hpop]
    rfl
  · intro i d hi hf hst hroom
    rw [State.plainWrite_allocate (State.handling_eq_allocate hi hf hst hroom), State.takeAllocate, hstall,
      Maps.mark_image hi, Sp.releaseClaims_unclaimed (hk.unclaimed hs), hpop]
    simp only [Jrn.raisesHigh_iff]
    rfl
  · rw [State.plainWrite_straight (State.handling_straight hc)]
    refine ⟨fun hn => if_neg (mt hroom.1 hn), fun hfree => ?_⟩
    refine ⟨_, fun q hq he => freshId_not_mem _ (List.mem_map.2 ⟨q, hq, he⟩), ?_⟩
    rw [if_pos (hroom.2 hfree), State.takeStraight, hstall, Maps.mark_eq, Sp.straight_unclaimed (hk.unclaimed hs),
      Sp.popWrite_straight hl]
    rfl

/-! ### The take of a stalled write (R12, R126) -/

theorem State.takePlain_merge {s : State} {w : WriteReq} (h : s.handling w = .merge) : s.takePlain w = s.takeMerge w := by
  simp only [State.takePlain, h]

theorem State.takePlain_straight {s : State} {w : WriteReq} (h : s.handling w = .straight) :
    s.takePlain w = s.takeStraight w := by simp only [State.takePlain, h]

/-- Settles O32, by whether a record is claimed and by the handling of the write. -/
theorem takesOfAStalledWrite : Obligations.TakesOfAStalledWrite := by
  unfold Obligations.TakesOfAStalledWrite
  intro s w rest hl popped credit marked straight
  have hpop := Sp.popWrite_straight hl s.resetting
  refine ⟨State.endStallWith_cons hl, fun before r after hw hr ho => ⟨?_, ?_, fun hc => ?_⟩, fun ho => ?_⟩
  · rw [State.takeStraight, Sp.straight_claimed hw hr ho, hpop, Maps.mark_eq]
    rfl
  · intro i d e hi hf
    rw [State.takePlain_merge (State.handling_merge hi hf), State.takeMerge, Sp.releaseClaims_claimed hw hr ho, hpop,
      Maps.mark_eq]
    rfl
  · rw [State.takePlain_straight (State.handling_straight hc)]
  · refine ⟨_, fun q hq he => freshId_not_mem _ (List.mem_map.2 ⟨q, hq, he⟩), ?_⟩
    rw [State.takeStraight, Sp.straight_unclaimed ho, hpop, Maps.mark_eq]
    rfl

end Sys2Proof.Machine


/-! ## The slot, the stall and the FREEZE command: every step keeps how they go together -/

namespace Sys2Proof.Machine

/-! ### Commands that look at the slot -/

/-- What the commands do, as conditions on a property of states that is about the slot; a request joins an empty slot where no
freeze can take effect, and a waiting FREEZE is taken over. -/
structure CommandKept (P : State → Prop) : Prop where
  mgmt : ∀ (s : State) (g : Mgmt), P s → P { s with mgmt := g } := by exact fun _ _ h => h
  alert : ∀ (s : State) (a : Alert), P s → P { s with alert := a } := by exact fun _ _ h => h
  stats : ∀ (s : State) (t : Stats), P s → P { s with stats := t } := by exact fun _ _ h => h
  resetting : ∀ s : State, P s → P { s with resetting := true } := by exact fun _ h => h
  baseline : ∀ s : State, P s → P { s with frz := { s.frz with baseline := false } } := by exact fun _ h => h
  windows : ∀ (s : State) (v : Win), P s → P { s with win := v } := by exact fun _ _ h => h
  maps : ∀ (s : State) (m : Maps), P s → P { s with maps := m } := by exact fun _ _ h => h
  freezePoint : ∀ (s : State) (k : Kind), s.canFreeze = true → P s → P (s.freezePoint .mgmt k)
  waits : ∀ (s : State) (k : Kind), s.canFreeze = false → s.frz.st ≠ .frozen → s.frz.slot = none → P s →
    P { s with frz := { s.frz with slot := some { source := .mgmt, kind := k } } }
  takeOver : ∀ (s : State) (k : Kind), s.frz.slot = some { source := .mgmt, kind := k } → P s → P s.emptySlot
  cancelSlot : ∀ s : State, P s → P s.cancelSlot
  breakEpoch : ∀ (s : State) (c : BreakCause), P s → P (s.breakEpoch c)

namespace CommandKept

variable {P : State → Prop} (c : CommandKept P)
include c

theorem completeCommand (s : State) (r : CmdResult) (h : P s) : P (s.completeCommand r) :=
  c.mgmt { s with alert := s.alert.raise .cmdDone } _ (c.alert s _ h)

theorem doFreeze (s : State) (h : P s) : P s.doFreeze := by
  unfold State.doFreeze
  split
  · exact c.completeCommand s _ h
  split
  · exact c.completeCommand _ _ (c.freezePoint s _ ‹_› h)
  rename_i hc
  split
  · exact c.completeCommand s _ h
  rename_i hf
  split
  · exact c.completeCommand s _ h
  · exact c.waits s _ (Bool.not_eq_true _ ▸ hc) hf (by simpa using ‹¬s.frz.slot.isSome = true›) h

theorem setTable (s : State) (t : List Window) (h : P s) : P (s.setTable t) :=
  c.maps _ _ (c.windows _ _ (c.baseline s h))

theorem doWindowWrite (s : State) (h : P s) : P s.doWindowWrite := by
  unfold State.doWindowWrite
  split
  · exact c.completeCommand s _ h
  split
  · exact c.completeCommand s _ h
  split
  · exact c.completeCommand s _ h
  · exact c.completeCommand _ _ (c.setTable s _ h)

theorem doWindowRead (s : State) (h : P s) : P s.doWindowRead := by
  unfold State.doWindowRead
  split
  · exact c.completeCommand s _ h
  · exact c.completeCommand _ _ (c.windows s _ h)

theorem doHistoryRead (s : State) (h : P s) : P s.doHistoryRead := by
  unfold State.doHistoryRead
  split
  · exact c.completeCommand s _ h
  · exact c.completeCommand _ _ (c.mgmt s _ h)

theorem takeCommand (s : State) (code : Nat) (h : P s) : P (s.takeCommand code) := by
  have ht : P { s with mgmt := s.mgmt.take code } := c.mgmt s _ h
  unfold State.takeCommand
  simp only
  split
  · exact c.doFreeze _ ht
  · exact c.completeCommand _ _ (c.breakEpoch _ _ (c.cancelSlot _ ht))
  · exact c.completeCommand _ _ (c.baseline _ ht)
  · exact c.doWindowWrite _ ht
  · exact c.doWindowRead _ ht
  · exact c.doHistoryRead _ ht
  · exact c.completeCommand _ _ (c.stats _ _ ht)
  · exact c.resetting _ (c.breakEpoch _ _ (c.cancelSlot _ ht))
  · exact c.completeCommand _ _ ht

/-- A WRITE to CMD, where a FREEZE that is busy waits in the slot. -/
theorem writeCmd (s : State) (code : Nat) (hw : s.freezeWaits = true → ∃ k, s.frz.slot = some { source := .mgmt, kind := k })
    (h : P s) : P (s.writeCmd code) := by
  unfold State.writeCmd
  split
  · exact c.takeCommand s code h
  split
  · rename_i hf
    obtain ⟨k, hk⟩ := hw hf.1
    exact c.takeCommand _ code (c.completeCommand _ _ (c.takeOver s k hk h))
  · exact c.mgmt s _ h

end CommandKept

/-! ### What the events of an epoch leave of the slot and the stall -/

theorem State.takePlain_frz (s : State) (w : WriteReq) : (s.takePlain w).frz = s.frz.endStall := by
  unfold State.takePlain
  split <;> rfl

/-- The end of a stall ends it, whether the lane has a head or not. -/
theorem State.endStallWith_frz {s : State} {take : State → WriteReq → State}
    (h : ∀ w, (take s w).frz = s.frz.endStall) : (s.endStallWith take).frz = s.frz.endStall := by
  unfold State.endStallWith
  split
  · exact h _
  · rfl

theorem State.endStraight_frz (s : State) : (s.endStallWith State.takeStraight).frz = s.frz.endStall :=
  State.endStallWith_frz fun _ => rfl

theorem State.endPlain_frz (s : State) : (s.endStallWith State.takePlain).frz = s.frz.endStall :=
  State.endStallWith_frz s.takePlain_frz

theorem State.endExhaustion_frz (s : State) :
    s.endExhaustion.frz = if s.frz.stall = some .exhaustion then s.frz.endStall else s.frz := by
  unfold State.endExhaustion
  split
  · exact s.endStraight_frz
  · rfl

/-- How a stall of the write lane goes with the slot and the freeze state: `marker` and `exhaustion` of `State.StallKept`. -/
structure Frz.StallSound (z : Frz) : Prop where
  marker : z.stall = some .marker ↔ ∃ k, z.slot = some { source := .marker, kind := k }
  exhaustion : z.stall = some .exhaustion → z.st = .frozen

namespace Frz.StallSound

/-- With no stall no MARKER request waits, and that is all. -/
theorem of_unstalled {z : Frz} (hs : z.stall = none) (hq : ∀ k, z.slot ≠ some { source := .marker, kind := k }) :
    z.StallSound where
  marker := iff_of_false (by simp [hs]) (by simpa using hq)
  exhaustion h := by simp [hs] at h

theorem congr {z y : Frz} (h : z.StallSound) (hslot : y.slot = z.slot := by rfl) (hstall : y.stall = z.stall := by rfl)
    (hst : y.st = z.st := by rfl) : y.StallSound where
  marker := by rw [hslot, hstall]; exact h.marker
  exhaustion := by rw [hstall, hst]; exact h.exhaustion

/-- A request of another source than MARKER joins an empty slot. -/
theorem waits {z : Frz} (h : z.StallSound) (hn : z.slot = none) {q : FreezeReq} (hq : q.source ≠ .marker) :
    Frz.StallSound { z with slot := some q } where
  marker := by
    have hm : z.stall ≠ some .marker := by simp [h.marker, hn]
    exact iff_of_false hm fun ⟨k, hk⟩ => hq (by rw [Option.some.inj hk])
  exhaustion := h.exhaustion

/-- A request of another source than MARKER leaves the slot. -/
theorem emptied {z : Frz} (h : z.StallSound) {q : FreezeReq} (hz : z.slot = some q) (hq : q.source ≠ .marker) :
    Frz.StallSound { z with slot := none } where
  marker := by
    refine iff_of_false (mt h.marker.1 ?_) (by simp)
    rintro ⟨k, hk⟩
    exact hq (by rw [Option.some.inj (hz.symm.trans hk)])
  exhaustion := h.exhaustion

theorem emptiedEnded (z : Frz) : Frz.StallSound (Frz.endStall { z with slot := none }) :=
  of_unstalled rfl (by simp [Frz.endStall])

theorem endStall {z : Frz} (h : z.StallSound) (hs : z.stall ≠ some .marker) : z.endStall.StallSound :=
  of_unstalled rfl fun k hk => hs (h.marker.2 ⟨k, hk⟩)

/-- R45: once FROZEN is left, the exhaustion stall ends. -/
theorem endExhaustion {s : State} (h : s.frz.stall = some .marker ↔ ∃ k, s.frz.slot = some { source := .marker, kind := k }) :
    s.endExhaustion.frz.StallSound := by
  rw [s.endExhaustion_frz]
  split
  · rename_i hs
    exact of_unstalled rfl fun k hk => absurd (hs.symm.trans (h.2 ⟨k, hk⟩)) (by simp)
  · exact ⟨h, fun hs => absurd hs ‹_›⟩

theorem captureComplete {s : State} (h : s.frz.StallSound) : s.captureComplete.frz.StallSound :=
  endExhaustion h.marker

theorem beginEpoch {s : State} (h : s.frz.StallSound) (src : Source) (k : Kind) :
    (s.beginEpoch src k).frz.StallSound := by
  obtain ⟨n, more, e, -⟩ := s.beginEpoch_eq src k
  rw [e]
  exact ⟨h.marker, fun _ => rfl⟩

theorem freezePoint {s : State} (h : s.frz.StallSound) (src : Source) (k : Kind) :
    (s.freezePoint src k).frz.StallSound := by
  have hb := h.beginEpoch src k
  unfold State.freezePoint
  simp only
  split
  · exact hb
  · exact hb.captureComplete

theorem takeEffect {s : State} (h : s.frz.StallSound) {q : FreezeReq} (hq : s.frz.slot = some q) :
    (s.takeEffect q).frz.StallSound := by
  unfold State.takeEffect
  split
  · exact freezePoint (s := s.emptySlot) (h.emptied hq (by simp [*])) _ _
  · exact freezePoint (s := s.emptySlot) (h.emptied hq (by simp [*])) _ _
  · refine freezePoint ?_ _ _
    rw [State.endStraight_frz]
    exact emptiedEnded _

theorem evaluate {s : State} (h : s.frz.StallSound) : s.evaluate.frz.StallSound := by
  unfold State.evaluate
  split
  · split
    · exact h.takeEffect ‹_›
    · exact h
  · exact h

theorem breakNow {s : State} (h : s.frz.StallSound) (c : BreakCause) : (s.breakNow c).frz.StallSound := by
  unfold State.breakNow
  split
  · exact endExhaustion h.marker
  · exact h.congr

theorem breakEpoch {s : State} (h : s.frz.StallSound) (c : BreakCause) : (s.breakEpoch c).frz.StallSound := by
  unfold State.breakEpoch
  split
  · exact (h.breakNow c).evaluate
  · exact h

theorem commitEpoch {s : State} (h : s.frz.StallSound) : s.commitEpoch.frz.StallSound := by
  unfold State.commitEpoch
  exact evaluate (h.congr)

theorem drained {z : Frz} (h : z.StallSound) (hd : z.st = .draining) : Frz.StallSound { z with st := .idle } where
  marker := h.marker
  exhaustion hs := by cases (h.exhaustion hs).symm.trans hd

theorem endDrain {s : State} (h : s.frz.StallSound) : s.endDrain.frz.StallSound := by
  unfold State.endDrain
  split
  · rename_i hd
    exact evaluate (h.drained hd.1)
  · exact h

theorem cancelSlot {s : State} (h : s.frz.StallSound) : s.cancelSlot.frz.StallSound := by
  unfold State.cancelSlot
  split
  · exact h
  split
  · rw [State.endPlain_frz]
    exact emptiedEnded _
  · exact h.emptied ‹_› (by simp [*])
  · exact h.emptied ‹_› (by simp [*])

theorem stallExpire {s : State} (h : s.frz.StallSound) : s.stallExpire.frz.StallSound := by
  unfold State.stallExpire
  split
  · show (s.emptySlot.endStallWith State.takePlain).frz.StallSound
    rw [State.endPlain_frz]
    exact emptiedEnded _
  · exact h.breakEpoch _
  · exact h

theorem commandKept : CommandKept fun s => s.frz.StallSound where
  baseline _ h := h.congr
  freezePoint _ _ _ h := h.freezePoint _ _
  waits _ _ _ _ hn h := h.waits hn (by simp)
  takeOver _ _ hk h := h.emptied hk (by simp)
  cancelSlot _ h := h.cancelSlot
  breakEpoch _ c h := h.breakEpoch c

end Frz.StallSound

/-! ### A FREEZE is busy exactly while its request waits -/

theorem State.endStallWith_mgmt {s : State} {take : State → WriteReq → State} (h : ∀ w, (take s w).mgmt = s.mgmt) :
    (s.endStallWith take).mgmt = s.mgmt := by
  unfold State.endStallWith
  split
  · exact h _
  · rfl

theorem State.takePlain_mgmt (s : State) (w : WriteReq) : (s.takePlain w).mgmt = s.mgmt := by
  unfold State.takePlain
  split <;> rfl

/-- R8, R9: `freezeWaits` of `State.StallKept`. -/
def State.FreezeHeld (s : State) : Prop :=
  (s.mgmt.busy = true ∧ s.mgmt.code = 1) ↔ ∃ k, s.frz.slot = some { source := .mgmt, kind := k }

namespace State.FreezeHeld

theorem congr {s t : State} (h : s.FreezeHeld) (hslot : t.frz.slot = s.frz.slot := by rfl)
    (hbusy : t.mgmt.busy = s.mgmt.busy := by rfl) (hcode : t.mgmt.code = s.mgmt.code := by rfl) : t.FreezeHeld := by
  unfold State.FreezeHeld
  rw [hslot, hbusy, hcode]
  exact h

theorem of_free {s : State} (hb : ¬(s.mgmt.busy = true ∧ s.mgmt.code = 1))
    (hs : ∀ k, s.frz.slot ≠ some { source := .mgmt, kind := k }) : s.FreezeHeld :=
  iff_of_false hb (by simpa using hs)

/-- A command has completed, and no request of the management link waits. -/
theorem completed {s : State} (hs : ∀ k, s.frz.slot ≠ some { source := .mgmt, kind := k }) (r : CmdResult) :
    (s.completeCommand r).FreezeHeld := of_free (by simp [State.completeCommand]) hs

/-- A request that waits is of the management link exactly when a FREEZE is busy. -/
theorem notBusy {s : State} (h : s.FreezeHeld) (hs : ∀ k, s.frz.slot ≠ some { source := .mgmt, kind := k }) :
    ¬(s.mgmt.busy = true ∧ s.mgmt.code = 1) := mt h.1 (by simpa using hs)

/-- A request of another source leaves the slot or joins it. -/
theorem moved {s t : State} (h : s.FreezeHeld) (hs : ∀ k, s.frz.slot ≠ some { source := .mgmt, kind := k })
    (ht : ∀ k, t.frz.slot ≠ some { source := .mgmt, kind := k }) (hbusy : t.mgmt.busy = s.mgmt.busy := by rfl)
    (hcode : t.mgmt.code = s.mgmt.code := by rfl) : t.FreezeHeld :=
  of_free (by rw [hbusy, hcode]; exact h.notBusy hs) ht

theorem emptied {s : State} (h : s.FreezeHeld) {q : FreezeReq} (hq : s.frz.slot = some q) (hm : q.source ≠ .mgmt) :
    s.emptySlot.FreezeHeld :=
  h.moved (fun k hk => hm (by rw [Option.some.inj (hq.symm.trans hk)])) (by simp)

theorem endStraight {s : State} (h : s.FreezeHeld) : (s.endStallWith State.takeStraight).FreezeHeld :=
  have hm : (s.endStallWith State.takeStraight).mgmt = s.mgmt := State.endStallWith_mgmt fun _ => rfl
  h.congr (by rw [State.endStraight_frz]; rfl) (by rw [hm]) (by rw [hm])

theorem endPlain {s : State} (h : s.FreezeHeld) : (s.endStallWith State.takePlain).FreezeHeld :=
  have hm : (s.endStallWith State.takePlain).mgmt = s.mgmt := State.endStallWith_mgmt s.takePlain_mgmt
  h.congr (by rw [State.endPlain_frz]; rfl) (by rw [hm]) (by rw [hm])

theorem endExhaustion {s : State} (h : s.FreezeHeld) : s.endExhaustion.FreezeHeld := by
  unfold State.endExhaustion
  split
  · exact h.endStraight
  · exact h

theorem captureComplete {s : State} (h : s.FreezeHeld) : s.captureComplete.FreezeHeld := endExhaustion h.congr

theorem freezePoint {s : State} (h : s.FreezeHeld) (src : Source) (k : Kind) : (s.freezePoint src k).FreezeHeld := by
  have hb : (s.beginEpoch src k).FreezeHeld := by
    obtain ⟨n, more, e, -⟩ := s.beginEpoch_eq src k
    rw [e]
    exact h.congr
  unfold State.freezePoint
  simp only
  split
  · exact hb
  · exact hb.captureComplete

end State.FreezeHeld

theorem State.endExhaustion_slot (s : State) : s.endExhaustion.frz.slot = s.frz.slot := by
  rw [s.endExhaustion_frz]
  split <;> rfl

theorem State.freezePoint_slot (s : State) (src : Source) (k : Kind) : (s.freezePoint src k).frz.slot = s.frz.slot := by
  have hb : (s.beginEpoch src k).frz.slot = s.frz.slot := by
    obtain ⟨n, more, e, -⟩ := s.beginEpoch_eq src k
    rw [e]
    rfl
  unfold State.freezePoint
  simp only
  split
  · exact hb
  · exact (State.endExhaustion_slot _).trans hb

theorem State.breakNow_slot (s : State) (c : BreakCause) : (s.breakNow c).frz.slot = s.frz.slot := by
  unfold State.breakNow
  split
  · exact State.endExhaustion_slot _
  · rfl

theorem State.breakEpoch_slot {s : State} (h : s.frz.slot = none) (c : BreakCause) : (s.breakEpoch c).frz.slot = none := by
  have hb : (s.breakNow c).frz.slot = none := (s.breakNow_slot c).trans h
  unfold State.breakEpoch
  rw [State.evaluate_empty hb]
  split
  · exact hb
  · exact h

theorem State.cancelSlot_slot (s : State) : s.cancelSlot.frz.slot = none := by
  unfold State.cancelSlot
  split
  · assumption
  split
  · rw [State.endPlain_frz]
    rfl
  · rfl
  · rfl

namespace State.FreezeHeld

theorem takeEffect {s : State} (h : s.FreezeHeld) {q : FreezeReq} (hq : s.frz.slot = some q) :
    (s.takeEffect q).FreezeHeld := by
  unfold State.takeEffect
  split
  · exact completed (by simp [State.freezePoint_slot]) .ok
  · exact (h.emptied hq (by simp [*])).freezePoint _ _
  · exact (h.emptied hq (by simp [*])).endStraight.freezePoint _ _

theorem evaluate {s : State} (h : s.FreezeHeld) : s.evaluate.FreezeHeld := by
  unfold State.evaluate
  split
  · split
    · exact h.takeEffect ‹_›
    · exact h
  · exact h

theorem breakEpoch {s : State} (h : s.FreezeHeld) (c : BreakCause) : (s.breakEpoch c).FreezeHeld := by
  unfold State.breakEpoch State.breakNow
  split
  · refine evaluate ?_
    split
    · exact endExhaustion h.congr
    · exact h.congr
  · exact h

theorem commitEpoch {s : State} (h : s.FreezeHeld) : s.commitEpoch.FreezeHeld := evaluate h.congr

theorem endDrain {s : State} (h : s.FreezeHeld) : s.endDrain.FreezeHeld := by
  unfold State.endDrain
  split
  · exact evaluate h.congr
  · exact h

theorem doFreeze {s : State} (hs : ∀ k, s.frz.slot ≠ some { source := .mgmt, kind := k })
    (hb : s.mgmt.busy = true ∧ s.mgmt.code = 1) : s.doFreeze.FreezeHeld := by
  unfold State.doFreeze
  split
  · exact completed hs _
  split
  · exact completed (by rw [State.freezePoint_slot]; exact hs) _
  split
  · exact completed hs _
  split
  · exact completed hs _
  · exact iff_of_true hb ⟨_, rfl⟩

/-- With no request of the management link waiting, a command completes, or a FREEZE begins to wait, or a RESET is busy. -/
theorem takeCommand {s : State} (hs : ∀ k, s.frz.slot ≠ some { source := .mgmt, kind := k }) (code : Nat) :
    (s.takeCommand code).FreezeHeld := by
  have done : ∀ (t : State) (r : CmdResult), t.frz.slot = s.frz.slot → (t.completeCommand r).FreezeHeld :=
    fun t r ht => completed (by rw [ht]; exact hs) r
  unfold State.takeCommand
  simp only
  split
  · exact doFreeze hs ⟨rfl, rfl⟩
  · exact completed (by simp [State.breakEpoch_slot (State.cancelSlot_slot _)]) .ok
  · exact done _ .ok rfl
  · unfold State.doWindowWrite
    split
    · exact done _ _ rfl
    split
    · exact done _ _ rfl
    split
    · exact done _ _ rfl
    · exact done _ _ rfl
  · unfold State.doWindowRead
    split
    · exact done _ _ rfl
    · exact done _ _ rfl
  · unfold State.doHistoryRead
    split
    · exact done _ _ rfl
    · exact done _ _ rfl
  · exact done _ .ok rfl
  · refine of_free ?_ (by simp [State.doReset, State.breakEpoch_slot (State.cancelSlot_slot _)])
    have u := (State.undisturbed_cancelSlot { s with mgmt := s.mgmt.take 8 }).trans (State.undisturbed_breakEpoch _ .reset)
    exact fun hb => absurd (show (8 : Nat) = 1 from u.code.symm.trans hb.2) (by decide)
  · exact done _ _ rfl

theorem writeCmd {s : State} (h : s.FreezeHeld) (code : Nat) : (s.writeCmd code).FreezeHeld := by
  unfold State.writeCmd
  split
  · rename_i hb
    exact takeCommand (fun k hk => absurd (h.2 ⟨k, hk⟩).1 (by simpa using hb)) code
  split
  · exact takeCommand (by simp [State.completeCommand]) code
  · exact h.congr

end State.FreezeHeld

/-! ### Every step keeps how slot, stall and FREEZE go together -/

/-- `marker`, `exhaustion` and `freezeWaits` of `State.StallKept`: what it says of the freeze controller and the commands. -/
structure State.SlotKept (s : State) : Prop where
  stall : s.frz.StallSound
  freeze : s.FreezeHeld

namespace State.SlotKept

theorem congr {s t : State} (h : s.SlotKept) (hslot : t.frz.slot = s.frz.slot := by rfl)
    (hstall : t.frz.stall = s.frz.stall := by rfl) (hst : t.frz.st = s.frz.st := by rfl)
    (hbusy : t.mgmt.busy = s.mgmt.busy := by rfl) (hcode : t.mgmt.code = s.mgmt.code := by rfl) : t.SlotKept :=
  ⟨h.stall.congr hslot hstall hst, h.freeze.congr hslot hbusy hcode⟩

theorem noMarker {s : State} (h : s.SlotKept) (hs : s.frz.stall = none) (k : Kind) :
    s.frz.slot ≠ some { source := .marker, kind := k } :=
  fun hk => absurd (hs.symm.trans (h.stall.marker.2 ⟨k, hk⟩)) (by simp)

theorem endExhaustion {s : State} (h : s.SlotKept) : s.endExhaustion.SlotKept :=
  ⟨.endExhaustion h.stall.marker, h.freeze.endExhaustion⟩

theorem captureComplete {s : State} (h : s.SlotKept) : s.captureComplete.SlotKept :=
  ⟨h.stall.captureComplete, h.freeze.captureComplete⟩

theorem freezePoint {s : State} (h : s.SlotKept) (src : Source) (k : Kind) : (s.freezePoint src k).SlotKept :=
  ⟨h.stall.freezePoint src k, h.freeze.freezePoint src k⟩

theorem evaluate {s : State} (h : s.SlotKept) : s.evaluate.SlotKept := ⟨h.stall.evaluate, h.freeze.evaluate⟩

theorem breakNow {s : State} (h : s.SlotKept) (c : BreakCause) : (s.breakNow c).SlotKept := by
  refine ⟨h.stall.breakNow c, ?_⟩
  unfold State.breakNow
  split
  · exact State.FreezeHeld.endExhaustion h.freeze.congr
  · exact h.freeze.congr

theorem breakEpoch {s : State} (h : s.SlotKept) (c : BreakCause) : (s.breakEpoch c).SlotKept :=
  ⟨h.stall.breakEpoch c, h.freeze.breakEpoch c⟩

theorem commitEpoch {s : State} (h : s.SlotKept) : s.commitEpoch.SlotKept :=
  ⟨h.stall.commitEpoch, h.freeze.commitEpoch⟩

theorem endDrain {s : State} (h : s.SlotKept) : s.endDrain.SlotKept := ⟨h.stall.endDrain, h.freeze.endDrain⟩

theorem stallExpire {s : State} (h : s.SlotKept) : s.stallExpire.SlotKept := by
  refine ⟨h.stall.stallExpire, ?_⟩
  unfold State.stallExpire
  split
  · obtain ⟨k, hk⟩ := h.stall.marker.1 ‹_›
    exact (h.freeze.emptied hk (by simp)).endPlain.congr
  · exact h.freeze.breakEpoch _
  · exact h.freeze

/-- A write that is not stalled is taken. -/
theorem taken {s t : State} (h : s.SlotKept) (hs : s.frz.stall = none) (hz : t.frz = s.frz.endStall := by rfl)
    (hm : t.mgmt = s.mgmt := by rfl) : t.SlotKept :=
  h.congr (by rw [hz]; rfl) (by rw [hz, hs]; rfl) (by rw [hz]; rfl) (by rw [hm]) (by rw [hm])

theorem exhaust {s : State} (h : s.SlotKept) {w : WriteReq} (hs : s.frz.stall = none) (hh : s.handling w = .exhaustion) :
    (s.exhaust w).SlotKept := by
  unfold State.exhaust
  split
  · exact (h.breakEpoch _).taken (State.breakEpoch_exhaustion _ hh hs).2
  · refine ⟨⟨?_, fun _ => (State.handling_exhaustion_nonempty hh).1⟩, h.freeze.congr⟩
    exact iff_of_false (by simp [State.beginStall]) fun ⟨k, hk⟩ => h.noMarker hs k hk

theorem markerWaits {s : State} (h : s.SlotKept) (hq : s.frz.slot = none) (w : WriteReq) (k : Kind) :
    (State.beginStall { s with frz := { s.frz with slot := some { source := .marker, kind := k } } } .marker w).SlotKept where
  stall := ⟨iff_of_true rfl ⟨k, rfl⟩, fun he => by cases he⟩
  freeze := h.freeze.moved (by simp [hq]) (by simp [State.beginStall])

theorem lineWaits {s : State} (h : s.SlotKept) (hq : s.frz.slot = none) (k : Kind) :
    State.SlotKept { s with frz := { s.frz with slot := some { source := .line, kind := k } } } where
  stall := h.stall.waits hq (by simp)
  freeze := h.freeze.moved (by simp [hq]) (by simp)

/-- R29: an S-port reset cancels a MARKER request and ends a stall. -/
theorem portReset {s : State} (h : s.SlotKept) :
    State.SlotKept { s with sp := s.sp.portReset s.resetting, frz := s.frz.portReset } := by
  refine ⟨.of_unstalled rfl fun k hk => ?_, ?_⟩
  · simp only [Frz.portReset] at hk
    split at hk
    · split at hk
      · cases hk
      · rename_i hm
        exact hm (by rw [Option.some.inj hk])
    · cases hk
  · simp only [Frz.portReset]
    cases hq : s.frz.slot with
    | none => exact h.freeze.congr (by simp [hq])
    | some q =>
      by_cases hm : q.source = .marker
      · exact h.freeze.moved (fun k hk => by simp [Option.some.inj (hq.symm.trans hk)] at hm) (by simp [hm])
      · exact h.freeze.congr (by simp [hq, hm])

theorem drainDone {s : State} (h : s.SlotKept) (e : JEntry) (ok : Bool) : (s.drainDone e ok).SlotKept := by
  unfold State.drainDone
  split
  · split
    · exact h.congr
    · exact endDrain h.congr
  · split
    · exact h.congr
    · exact endDrain h.congr

theorem copierDone {s : State} (h : s.SlotKept) (ok : Bool) (data : Block) : (s.copierDone ok data).SlotKept := by
  unfold State.copierDone State.copierReadDone
  simp only
  split
  · exact h.congr
  split
  · split
    · split
      · exact captureComplete h.congr
      · exact h.congr
    · exact h.congr
  · exact breakEpoch h.congr _

theorem completionClosed : CompletionClosed State.SlotKept where
  alert _ _ h := h.congr
  stats _ _ h := h.congr
  out _ _ h := h.congr
  retire _ _ _ _ _ h := h.congr
  send s h := by
    obtain ⟨q, n, o, e, -, -⟩ := s.sendToMemory_eq
    rw [e]
    exact h.congr
  dropRead _ _ h := h.congr
  dropWrite _ _ h := h.congr
  drainDone _ _ e ok _ h := h.drainDone e ok
  copierDone _ ok data h := h.copierDone ok data

theorem grantTo {s : State} (h : s.SlotKept) (r : Requester) : (s.grantTo r).SlotKept := by
  unfold State.grantTo
  split
  · split
    · exact h.congr
    · exact h
  · split
    · exact h.congr
    · exact h
  · obtain ⟨reads, pos, slots, e⟩ := s.copierIssue_eq
    rw [e]
    exact h.congr

theorem reset : State.reset.SlotKept :=
  ⟨⟨State.stallKept_reset.marker, State.stallKept_reset.exhaustion⟩, State.stallKept_reset.freezeWaits⟩

/-- R9: a FREEZE that is busy waits in the slot. -/
theorem busyWaits {s : State} (h : s.SlotKept) (hw : s.freezeWaits = true) :
    ∃ k, s.frz.slot = some { source := .mgmt, kind := k } := by
  obtain ⟨hb, hcode⟩ := Bool.and_eq_true_iff.1 hw
  exact h.freeze.1 ⟨hb, of_decide_eq_true hcode⟩

theorem writeCmd {s : State} (h : s.SlotKept) (code : Nat) : (s.writeCmd code).SlotKept :=
  ⟨Frz.StallSound.commandKept.writeCmd s code h.busyWaits h.stall, h.freeze.writeCmd code⟩

theorem eventClosed (Q : State → Prop) : EventClosed Q State.SlotKept where
  same e h := h.congr e.slot e.stall e.st e.busy e.code
  reset := reset
  portReset _ h := h.portReset
  writeCmd _ code h := h.writeCmd code
  breakEpoch _ c h := h.breakEpoch c
  stallExpire _ h := h.stallExpire
  freeze _ src k _ h := h.freezePoint src k
  evaluate _ h := h.evaluate
  commit _ h := h.commitEpoch
  record _ _ _ h := h.congr
  arriveRead _ _ _ h := h.congr
  arriveWrite _ _ _ h := h.congr
  popRead _ _ h := h.congr
  popWrite _ _ _ h := h.congr
  addRead _ _ _ _ h := h.congr
  straight _ _ _ hs _ h := h.taken hs
  merge _ _ _ hs h := h.taken hs
  allocate _ _ _ _ hs _ h := h.taken hs
  exhaust _ _ _ hs hh _ h := h.exhaust hs hh
  lineWaits _ k hq h := h.lineWaits hq k
  markerWaits _ w k _ _ hq _ h := h.markerWaits hq w k
  send s h := completionClosed.send s h
  grant _ _ _ h := grantTo h.congr _
  complete s e rest ok data hq hi _ h := completionClosed.complete s e rest ok data hq hi h

end State.SlotKept

end Sys2Proof.Machine


/-! ## Induction over steps for invariants on lists, queues and entry states -/

namespace Sys2Proof.Machine

/-- `t` has freeze state, stall, lanes, lists, journal entries and memory queue as `s` has them. -/
structure State.SameFlow (s t : State) : Prop where
  st : t.frz.st = s.frz.st := by rfl
  stall : t.frz.stall = s.frz.stall := by rfl
  entries : t.jrn.entries = s.jrn.entries := by rfl
  sp : t.sp = s.sp := by rfl
  queue : t.mp.queue = s.mp.queue := by rfl

/-- The changes of lanes, lists, entries and queues that the events of an epoch and the port are made of, as conditions on a
property of states that is about these; an invariant is about some of them, and the others leave it as it is. -/
structure FlowClosed (X : State → Prop) : Prop where
  same : ∀ {s t : State}, s.SameFlow t → X s → X t
  reset : X State.reset
  portReset : ∀ s : State, X s → X { s with sp := s.sp.portReset s.resetting, frz := s.frz.portReset } := by
    exact fun _ h => h
  arriveRead : ∀ (s : State) (q : ReadReq), X s →
    X { s with sp := { s.sp with rlane := s.sp.rlane ++ [q], rcred := s.sp.rcred - 1 } } := by exact fun _ _ h => h
  arriveWrite : ∀ (s : State) (q : WriteReq), X s →
    X { s with sp := { s.sp with wlane := s.sp.wlane ++ [q], wcred := s.sp.wcred - 1 } } := by exact fun _ _ h => h
  popRead : ∀ s : State, X s → X { s with sp := s.sp.popRead s.resetting } := by exact fun _ h => h
  popWrite : ∀ s : State, s.frz.stall = none → X s → X { s with sp := s.sp.popWrite s.resetting } := by
    exact fun _ _ h => h
  /-- A write is taken straight, with its claim or with room for it. -/
  straight : ∀ (s : State) (w : WriteReq), (s.frz.stall = none → s.sp.writeRoom = true) → X s →
    X { s with frz := s.frz.endStall, sp := (s.sp.straight w).popWrite s.resetting } := by exact fun _ _ _ h => h
  /-- A write is answered at its take. -/
  answered : ∀ s : State, X s →
    X { s with frz := s.frz.endStall, sp := s.sp.releaseClaims.popWrite s.resetting } := by exact fun _ h => h
  /-- A stall ends with an empty lane (log 23). -/
  unstalled : ∀ s : State, X s → X { s with frz := s.frz.endStall, sp := s.sp.releaseClaims } := by exact fun _ h => h
  stalled : ∀ (s : State) (k : StallKind) (w : WriteReq), s.sp.wlane ≠ [] → s.frz.stall = none →
    s.sp.writeRoom = true → X s → X { s with frz := { s.frz with stall := some k }, sp := s.sp.claim w } := by
    exact fun _ _ _ _ _ _ h => h
  /-- Entries change neither their block nor their state. -/
  change : ∀ (s : State) (f : JEntry → JEntry), (∀ e, (f e).block = e.block ∧ (f e).st = e.st) → X s →
    X { s with jrn := { s.jrn with entries := s.jrn.entries.map f } } := by exact fun _ _ _ h => h
  hold : ∀ (s : State) (e : JEntry), s.frz.st = .frozen → e.st = .held → X s →
    X { s with jrn := { s.jrn with entries := s.jrn.entries ++ [e] } } := by exact fun _ _ _ _ h => h
  freeze : ∀ s : State, X s → X { s with frz := { s.frz with st := .frozen } } := by exact fun _ h => h
  leaveFrozen : ∀ s : State, X s → X s.leaveFrozen := by exact fun _ h => h
  idle : ∀ s : State, s.jrn.entries = [] → X s → X { s with frz := { s.frz with st := .idle } } := by exact fun _ _ h => h
  send : ∀ s : State, X s → X s.sendToMemory := by exact fun _ h => h

namespace FlowClosed

variable {X : State → Prop} (c : FlowClosed X)
include c

/-! ### Takes and the ends of stalls -/

theorem takeStraight (s : State) (w : WriteReq) (hr : s.frz.stall = none → s.sp.writeRoom = true) (h : X s) :
    X (s.takeStraight w) := c.same {} (c.straight s w hr h)

theorem update (s : State) (b : Addr) (f : JEntry → JEntry) (hf : ∀ e, (f e).block = e.block ∧ (f e).st = e.st) (h : X s) :
    X { s with jrn := s.jrn.update b f } :=
  c.change s (fun e => if e.block = b then f e else e) (fun e => by split <;> simp [hf]) h

theorem takeMerge (s : State) (w : WriteReq) (h : X s) : X (s.takeMerge w) :=
  c.same {} (c.answered _ (c.update s w.addr (fun e => e.merge w.mask w.block32) (fun _ => ⟨rfl, rfl⟩) h))

theorem takeAllocate (s : State) (w : WriteReq) (i : Nat) (hh : s.handling w = .allocate i) (h : X s) :
    X (s.takeAllocate w i) :=
  c.same {} (c.answered _ (c.hold s (newEntry w i s.frz.epoch) (State.handling_allocate hh).1 rfl h))

theorem takePlain (s : State) (w : WriteReq) (hs : s.frz.stall ≠ none) (h : X s) : X (s.takePlain w) := by
  unfold State.takePlain
  split
  · exact c.takeMerge s w h
  · exact c.takeAllocate s w _ ‹_› h
  · exact c.takeStraight s w (absurd · hs) h
  · exact c.takeStraight s w (absurd · hs) h

theorem endStallWith (s : State) (take : State → WriteReq → State) (ht : ∀ w, X (take s w)) (h : X s) :
    X (s.endStallWith take) := by
  unfold State.endStallWith
  split
  · exact ht _
  · exact c.unstalled s h

theorem endStraight (s : State) (hs : s.frz.stall ≠ none) (h : X s) : X (s.endStallWith State.takeStraight) :=
  c.endStallWith s _ (fun w => c.takeStraight s w (absurd · hs) h) h

theorem endPlain (s : State) (hs : s.frz.stall ≠ none) (h : X s) : X (s.endStallWith State.takePlain) :=
  c.endStallWith s _ (fun w => c.takePlain s w hs h) h

theorem emptySlot (s : State) (h : X s) : X s.emptySlot := c.same {} h

theorem endExhaustion (s : State) (h : X s) : X s.endExhaustion := by
  unfold State.endExhaustion
  split
  · exact c.endStraight s (by simp [*]) h
  · exact h

omit c in
/-- R11: a MARKER request waits during a stall, which its leaving the slot does not end. -/
theorem stalled_emptySlot {s : State} (hz : s.frz.StallSound) {q : FreezeReq} (hq : s.frz.slot = some q)
    (hm : q.source = .marker) : s.emptySlot.frz.stall ≠ none := by
  have hs : s.frz.stall = some .marker := hz.marker.2 ⟨q.kind, by rw [hq, ← hm]⟩
  simp [hs]

theorem cancelSlot (s : State) (hz : s.frz.StallSound) (h : X s) : X s.cancelSlot := by
  unfold State.cancelSlot
  split
  · exact h
  split
  · exact c.endPlain s.emptySlot (stalled_emptySlot hz ‹_› ‹_›) (c.emptySlot s h)
  · exact c.emptySlot s h
  · exact c.emptySlot s h

/-! ### The events of an epoch -/

theorem captureComplete (s : State) (h : X s) : X s.captureComplete := by
  unfold State.captureComplete
  exact c.endExhaustion _ (c.same {} (c.leaveFrozen _ (c.same {} h)))

theorem freezePoint (s : State) (src : Source) (k : Kind) (h : X s) : X (s.freezePoint src k) := by
  have hb : X (s.beginEpoch src k) := by
    obtain ⟨n, more, e, -⟩ := s.beginEpoch_eq src k
    rw [e]
    exact c.same {} (c.freeze s h)
  unfold State.freezePoint
  simp only
  split
  · exact hb
  · exact c.captureComplete _ hb

theorem takeEffect (s : State) (hz : s.frz.StallSound) {q : FreezeReq} (hq : s.frz.slot = some q) (h : X s) :
    X (s.takeEffect q) := by
  have he := c.emptySlot s h
  unfold State.takeEffect
  split
  · exact c.same {} (c.freezePoint _ .mgmt q.kind he)
  · exact c.freezePoint _ _ _ he
  · exact c.freezePoint _ _ _ (c.endStraight s.emptySlot (stalled_emptySlot hz hq ‹_›) he)

theorem evaluate (s : State) (hz : s.frz.StallSound) (h : X s) : X s.evaluate := by
  unfold State.evaluate
  split
  · split
    · exact c.takeEffect s hz ‹_› h
    · exact h
  · exact h

theorem breakNow (s : State) (b : BreakCause) (h : X s) : X (s.breakNow b) := by
  have hb : X (s.breakCore b) := c.same {} h
  unfold State.breakNow
  split
  · exact c.endExhaustion _ (c.leaveFrozen _ hb)
  · exact hb

theorem breakEpoch (s : State) (b : BreakCause) (hz : s.frz.StallSound) (h : X s) : X (s.breakEpoch b) := by
  unfold State.breakEpoch
  split
  · exact c.evaluate _ (hz.breakNow b) (c.breakNow s b h)
  · exact h

theorem commitEpoch (s : State) (hz : s.frz.StallSound) (h : X s) : X s.commitEpoch := by
  unfold State.commitEpoch
  exact c.evaluate _ hz.congr (c.same {} h)

theorem stallExpire (s : State) (hz : s.frz.StallSound) (h : X s) : X s.stallExpire := by
  unfold State.stallExpire
  split
  · rename_i hs
    exact c.same {} (c.endPlain s.emptySlot (by simp [hs]) (c.emptySlot s h))
  · exact c.breakEpoch s _ hz h
  · exact h

theorem beginStall (s : State) (k : StallKind) (w : WriteReq) (hl : s.sp.wlane ≠ []) (hs : s.frz.stall = none)
    (hr : s.sp.writeRoom = true) (h : X s) : X (s.beginStall k w) := c.same {} (c.stalled s k w hl hs hr h)

theorem exhaust (s : State) (w : WriteReq) (hz : s.frz.StallSound) (hl : s.sp.wlane ≠ []) (hs : s.frz.stall = none)
    (hh : s.handling w = .exhaustion) (hr : s.sp.writeRoom = true) (h : X s) : X (s.exhaust w) := by
  unfold State.exhaust
  split
  · refine c.takeStraight _ w (fun _ => ?_) (c.breakEpoch s _ hz h)
    rwa [(State.breakEpoch_exhaustion _ hh hs).1]
  · exact c.beginStall s _ w hl hs hr h

theorem endDrain (s : State) (hz : s.frz.StallSound) (h : X s) : X s.endDrain := by
  rw [State.endDrain_eq]
  split
  · rename_i hd
    exact c.evaluate _ (hz.drained hd.1) (c.same {} (c.idle s hd.2 h))
  · exact h

theorem copierDone (s : State) (ok : Bool) (data : Block) (hz : s.frz.StallSound) (h : X s) :
    X (s.copierDone ok data) := by
  unfold State.copierDone State.copierReadDone
  simp only
  split
  · exact c.same {} h
  split
  · split
    · split
      · exact c.captureComplete _ (c.same {} h)
      · exact c.same {} h
    · exact c.same {} h
  · refine c.breakEpoch _ _ ?_ (c.same {} h)
    exact hz

/-! ### Memory -/

theorem arbitrate (s : State) (work : Requester → Bool) (k : Nat) (h : X s) :
    X { s with mp := (Mp.seek work k s.mp).won } := by
  obtain ⟨pos, n, cur, hs, -⟩ := Mp.seek_eq work k s.mp
  obtain ⟨pos', n', cur', hw, -⟩ := (Mp.seek work k s.mp).won_eq
  rw [hw, hs]
  exact c.same {} h

/-- The completion of a drain write, for a property that is not about the journal. -/
theorem drainDone (hj : ∀ (s : State) (j : Jrn), X s → X { s with jrn := j }) (s : State) (e : JEntry) (ok : Bool)
    (hz : s.frz.StallSound) (h : X s) : X (s.drainDone e ok) := by
  unfold State.drainDone
  split
  · split
    · exact hj s _ h
    · exact c.endDrain _ hz (hj s _ h)
  · split
    · exact hj s _ h
    · exact c.endDrain _ hz (c.same {} (hj s (s.drainLoss e).jrn h))

/-- A completion of a drain write or of a copier read, for a property that is not about the journal. -/
theorem handOver (hj : ∀ (s : State) (j : Jrn), X s → X { s with jrn := j }) (s : State) (e : MemEntry) (ok : Bool)
    (data : Block) (hr : ∀ id, e.access ≠ .liveRead id) (hw : ∀ id m d, e.access ≠ .liveWrite id m d)
    (hz : s.frz.StallSound) (h : X s) : X (s.handOver e ok data) := by
  unfold State.handOver
  split
  · exact absurd ‹_› (hr _)
  · exact absurd ‹_› (hw _ _ _)
  · split
    · exact c.drainDone hj s _ ok hz h
    · exact h
  · exact c.copierDone s ok data hz h

/-! ### Every step -/

theorem commandKept : CommandKept fun s => s.frz.StallSound ∧ X s where
  mgmt _ _ h := ⟨h.1, c.same {} h.2⟩
  alert _ _ h := ⟨h.1, c.same {} h.2⟩
  stats _ _ h := ⟨h.1, c.same {} h.2⟩
  resetting _ h := ⟨h.1, c.same {} h.2⟩
  baseline _ h := ⟨h.1.congr, c.same {} h.2⟩
  windows _ _ h := ⟨h.1, c.same {} h.2⟩
  maps _ _ h := ⟨h.1, c.same {} h.2⟩
  freezePoint s k _ h := ⟨h.1.freezePoint .mgmt k, c.freezePoint s .mgmt k h.2⟩
  waits _ _ _ _ hn h := ⟨h.1.waits hn (by simp), c.same {} h.2⟩
  takeOver _ _ hk h := ⟨h.1.emptied hk (by simp), c.same {} h.2⟩
  cancelSlot s h := ⟨h.1.cancelSlot, c.cancelSlot s h.1 h.2⟩
  breakEpoch s b h := ⟨h.1.breakEpoch b, c.breakEpoch s b h.1 h.2⟩

/-- A property that survives these changes, taken reads, grants and completions survives every event. -/
theorem eventClosed {Q : State → Prop}
    (addRead : ∀ (s : State) (r : ReadReq) (v : Option Capture), s.sp.readRoom = true → X s →
      X { s with sp := s.sp.addRead r v })
    (grant : ∀ s : State, s.grantPossible = true → Q s → X s →
      X (State.grantTo { s with mp := (Mp.seek s.hasWork arbiterLooks s.mp).won }
        (Mp.seek s.hasWork arbiterLooks s.mp).pos))
    (complete : ∀ (s : State) (e : MemEntry) (rest : List MemEntry) (ok : Bool) (data : Block), s.mp.queue = e :: rest →
      e.issued = true → Q s → s.SlotKept → X s →
      X ((State.sendToMemory { s with mp := s.mp.retire rest }).handOver e ok data)) :
    EventClosed Q fun s => s.SlotKept ∧ X s :=
  have k := State.SlotKept.eventClosed Q
  { same := fun e h => ⟨k.same e h.1, c.same { st := e.st, stall := e.stall, entries := e.entries, sp := e.sp,
                                               queue := e.queue } h.2⟩
    reset := ⟨k.reset, c.reset⟩
    portReset := fun s h => ⟨k.portReset s h.1, c.portReset s h.2⟩
    writeCmd := fun s code h => ⟨k.writeCmd s code h.1,
      (c.commandKept.writeCmd s code (fun hw => h.1.busyWaits hw) ⟨h.1.stall, h.2⟩).2⟩
    breakEpoch := fun s b h => ⟨k.breakEpoch s b h.1, c.breakEpoch s b h.1.stall h.2⟩
    stallExpire := fun s h => ⟨k.stallExpire s h.1, c.stallExpire s h.1.stall h.2⟩
    freeze := fun s src v hf h => ⟨k.freeze s src v hf h.1, c.freezePoint s src v h.2⟩
    evaluate := fun s h => ⟨k.evaluate s h.1, c.evaluate s h.1.stall h.2⟩
    commit := fun s h => ⟨k.commit s h.1, c.commitEpoch s h.1.stall h.2⟩
    record := fun s f hf h => ⟨k.record s f hf h.1, c.same {} h.2⟩
    arriveRead := fun s q hc h => ⟨k.arriveRead s q hc h.1, c.arriveRead s q h.2⟩
    arriveWrite := fun s q hc h => ⟨k.arriveWrite s q hc h.1, c.arriveWrite s q h.2⟩
    popRead := fun s hl h => ⟨k.popRead s hl h.1, c.popRead s h.2⟩
    popWrite := fun s hl hs h => ⟨k.popWrite s hl hs h.1, c.popWrite s hs h.2⟩
    addRead := fun s r v hr h => ⟨k.addRead s r v hr h.1, addRead s r v hr h.2⟩
    straight := fun s w hl hs hr h => ⟨k.straight s w hl hs hr h.1, c.takeStraight s w (fun _ => hr) h.2⟩
    merge := fun s w hl hs h => ⟨k.merge s w hl hs h.1, c.takeMerge s w h.2⟩
    allocate := fun s w i hl hs hh h => ⟨k.allocate s w i hl hs hh h.1, c.takeAllocate s w i hh h.2⟩
    exhaust := fun s w hl hs hh hr h => ⟨k.exhaust s w hl hs hh hr h.1, c.exhaust s w h.1.stall hl hs hh hr h.2⟩
    lineWaits := fun s v hq h => ⟨k.lineWaits s v hq h.1, c.same {} h.2⟩
    markerWaits := fun s w v hl hs hq hr h => ⟨k.markerWaits s w v hl hs hq hr h.1,
      c.beginStall _ .marker w hl hs hr (c.same {} h.2)⟩
    send := fun s h => ⟨k.send s h.1, c.send s h.2⟩
    grant := fun s hg hq h => ⟨k.grant s hg hq h.1, grant s hg hq h.2⟩
    complete := fun s e rest ok data hm hi hq h =>
      ⟨k.complete s e rest ok data hm hi hq h.1, complete s e rest ok data hm hi hq h.1 h.2⟩ }

end FlowClosed

end Sys2Proof.Machine


/-! ## Claims and references: every step keeps each of them (O9) -/

namespace Sys2Proof.Machine

/-! ### Lists of references: those waiting, those sent to memory, and those outstanding -/

section

variable {α : Type} {waiting sent ids : List α}

theorem perm_joined (h : (waiting ++ sent).Perm ids) (x : α) : ((waiting ++ [x]) ++ sent).Perm (ids ++ [x]) := by
  refine .trans ?_ (List.perm_append_singleton x ids).symm
  rw [List.append_assoc]
  exact List.perm_middle.trans (h.cons x)

theorem perm_sent {x : List α} (h : ((x ++ waiting) ++ sent).Perm ids) : (waiting ++ (sent ++ x)).Perm ids := by
  rw [← List.append_assoc]
  exact List.perm_append_comm.trans ((List.append_assoc ..).symm ▸ h)

theorem mem_of_sent {x : α} (h : (waiting ++ x :: sent).Perm ids) : x ∈ ids := h.subset (by simp)

theorem perm_answered [DecidableEq α] {x : α} (h : (waiting ++ x :: sent).Perm ids) (hn : ids.Nodup) :
    (waiting ++ sent).Perm (ids.filter fun y => decide (y ≠ x)) := by
  have he : (waiting ++ sent).Perm (ids.erase x) := by
    have := (List.perm_middle.symm.trans h).erase x
    rwa [List.erase_cons_head] at this
  have hf : (fun y => decide (y ≠ x)) = (· != x) := funext fun y => by by_cases hy : y = x <;> simp [hy]
  rwa [hf, ← hn.erase_eq_filter]

theorem filterMap_cons_toList {β : Type} (f : α → Option β) (a : α) (l : List α) :
    (a :: l).filterMap f = (f a).toList ++ l.filterMap f := by
  cases h : f a <;> simp [h]

end

theorem State.sendToMemory_filterMap {α : Type} (f : MemEntry → Option α) (h : ∀ e, f { e with issued := true } = f e)
    (s : State) : s.sendToMemory.mp.queue.filterMap f = s.mp.queue.filterMap f := by
  unfold State.sendToMemory
  split
  · split
    · exact issueOldest_filterMap f h _
    · rfl
  · rfl


@[simp] theorem State.sendToMemory_sp (s : State) : s.sendToMemory.sp = s.sp := by
  obtain ⟨q, n, o, h, -, -⟩ := s.sendToMemory_eq
  rw [h]

@[simp] theorem State.sendToMemory_jrn (s : State) : s.sendToMemory.jrn = s.jrn := by
  obtain ⟨q, n, o, h, -, -⟩ := s.sendToMemory_eq
  rw [h]

@[simp] theorem State.sendToMemory_mgmt (s : State) : s.sendToMemory.mgmt = s.mgmt := by
  obtain ⟨q, n, o, h, -, -⟩ := s.sendToMemory_eq
  rw [h]

/-! ### The memory access of a live-queue entry (R145) -/

theorem LiveEntry.readRef_access (q : LiveEntry) (b : Addr) (i : Bool) :
    MemEntry.readRef { access := q.access, block := b, issued := i } = q.readRef := by cases q <;> rfl

theorem LiveEntry.writeRef_access (q : LiveEntry) (b : Addr) (i : Bool) :
    MemEntry.writeRef { access := q.access, block := b, issued := i } = q.writeRef := by cases q <;> rfl

theorem LiveEntry.drainRef_access (q : LiveEntry) (b : Addr) (i : Bool) :
    MemEntry.drainRef { access := q.access, block := b, issued := i } = none := by cases q <;> rfl

/-! ### Completions of live accesses -/

/-- R131, R148: the record of a completed read leaves its list. -/
theorem State.liveReadDone_mp_sp (s : State) (id : Nat) (ok : Bool) (data : Block) :
    (s.liveReadDone id ok data).mp = s.mp ∧
      (s.liveReadDone id ok data).sp = { s.sp with reads := s.sp.reads.filter fun q => decide (q.id ≠ id) } := by
  unfold State.liveReadDone
  split
  · simp only
    split <;> exact ⟨rfl, rfl⟩
  · rename_i hn
    have hkeep : s.sp.reads.filter (fun q => decide (q.id ≠ id)) = s.sp.reads :=
      List.filter_eq_self.2 fun q hq => by simpa using List.find?_eq_none.1 hn q hq
    rw [hkeep]
    exact ⟨rfl, rfl⟩

/-- R131, R149: the record of a completed write leaves its list. -/
theorem State.liveWriteDone_eq (s : State) (id : Nat) (ok : Bool) :
    (s.liveWriteDone id ok).frz = s.frz ∧ (s.liveWriteDone id ok).mp = s.mp ∧
      (s.liveWriteDone id ok).sp = { s.sp with writes := s.sp.writes.filter fun q => decide (q.id ≠ id) } := by
  unfold State.liveWriteDone
  split
  · simp only
    split <;> exact ⟨rfl, rfl, rfl⟩
  · rename_i hn
    have hkeep : s.sp.writes.filter (fun q => decide (q.id ≠ id)) = s.sp.writes :=
      List.filter_eq_self.2 fun q hq => by simpa using List.find?_eq_none.1 hn q hq
    rw [hkeep]
    exact ⟨rfl, rfl, rfl⟩

/-! ### References to outstanding reads -/

/-- `readNumbers` and `reads` of `State.RefsKept`. -/
structure ReadsReferred (reads : List ReadRec) (live : List LiveEntry) (queue : List MemEntry) : Prop where
  numbers : (reads.map ReadRec.id).Nodup
  refs : (live.filterMap LiveEntry.readRef ++ queue.filterMap MemEntry.readRef).Perm (reads.map ReadRec.id)

namespace ReadsReferred

variable {reads : List ReadRec} {live : List LiveEntry} {queue : List MemEntry}

/-- A read with a number not in use joins the records and the live queue. -/
theorem add (h : ReadsReferred reads live queue) (r : ReadRec) (b : Addr) (hr : r.id ∉ reads.map ReadRec.id) :
    ReadsReferred (reads ++ [r]) (live ++ [.read b r.id]) queue where
  numbers := by
    rw [List.map_append, List.nodup_append_comm]
    exact List.nodup_cons.2 ⟨hr, h.numbers⟩
  refs := by
    rw [List.filterMap_append, List.map_append]
    exact perm_joined h.refs r.id

/-- A live-queue entry of a write refers to no read. -/
theorem join {q : LiveEntry} (h : ReadsReferred reads live queue) (hq : q.readRef = none) :
    ReadsReferred reads (live ++ [q]) queue where
  numbers := h.numbers
  refs := by
    rw [List.filterMap_append, List.filterMap_cons_none hq, List.filterMap_nil, List.append_nil]
    exact h.refs

/-- A live-queue entry moves to the memory queue. -/
theorem grant {q : LiveEntry} (h : ReadsReferred reads (q :: live) queue) (b : Addr) (i : Bool) :
    ReadsReferred reads live (queue ++ [{ access := q.access, block := b, issued := i }]) where
  numbers := h.numbers
  refs := by
    have hp := h.refs
    rw [filterMap_cons_toList] at hp
    rw [List.filterMap_append, filterMap_cons_toList _ _ [], q.readRef_access, List.filterMap_nil, List.append_nil]
    exact perm_sent hp

/-- The access of a read leaves the memory queue and its record the list. -/
theorem answer {e : MemEntry} {id : Nat} (he : e.readRef = some id) (h : ReadsReferred reads live (e :: queue)) :
    ReadsReferred (reads.filter fun q => decide (q.id ≠ id)) live queue where
  numbers := h.numbers.sublist (List.filter_sublist.map _)
  refs := by
    have hp := h.refs
    rw [List.filterMap_cons_some he] at hp
    have hf := perm_answered hp h.numbers
    rwa [List.filter_map] at hf

/-- An access of no read leaves the memory queue or joins it. -/
theorem drop {e : MemEntry} (he : e.readRef = none) (h : ReadsReferred reads live (e :: queue)) :
    ReadsReferred reads live queue where
  numbers := h.numbers
  refs := by
    have hp := h.refs
    rwa [List.filterMap_cons_none he] at hp

theorem append {e : MemEntry} (he : e.readRef = none) (h : ReadsReferred reads live queue) :
    ReadsReferred reads live (queue ++ [e]) where
  numbers := h.numbers
  refs := by
    rw [List.filterMap_append, List.filterMap_cons_none he, List.filterMap_nil, List.append_nil]
    exact h.refs

theorem congr {queue' : List MemEntry} (h : ReadsReferred reads live queue)
    (hq : queue'.filterMap MemEntry.readRef = queue.filterMap MemEntry.readRef) : ReadsReferred reads live queue' where
  numbers := h.numbers
  refs := hq.symm ▸ h.refs

end ReadsReferred

abbrev State.ReadsReferred (s : State) : Prop := Machine.ReadsReferred s.sp.reads s.sp.live s.mp.queue

theorem State.readsReferred_flowClosed : FlowClosed State.ReadsReferred where
  same e h := by
    unfold State.ReadsReferred
    rw [e.sp, e.queue]
    exact h
  reset := ⟨.nil, .nil⟩
  portReset s h := by
    have hids : (s.sp.portReset s.resetting).reads.map ReadRec.id = s.sp.reads.map ReadRec.id := by
      simp [Sp.portReset, Function.comp_def]
    exact ⟨by rw [hids]; exact h.numbers, by rw [hids]; exact h.refs⟩
  straight _ _ _ h := h.join rfl
  send s h := by
    unfold State.ReadsReferred
    rw [State.sendToMemory_sp]
    exact h.congr (s.sendToMemory_filterMap _ fun _ => rfl)


theorem State.ReadsReferred.grantTo {s : State} (h : s.ReadsReferred) (r : Requester) : (s.grantTo r).ReadsReferred := by
  unfold State.grantTo
  split
  · split
    · rename_i hl
      unfold State.ReadsReferred at h
      rw [hl] at h
      exact h.grant _ _
    · exact h
  · split
    · exact h.append rfl
    · exact h
  · obtain ⟨reads, pos, slots, e⟩ := s.copierIssue_eq
    rw [e]
    exact h.append rfl

theorem State.ReadsReferred.complete {s : State} (hz : s.frz.StallSound) (h : s.ReadsReferred) {e : MemEntry}
    {rest : List MemEntry} (hq : s.mp.queue = e :: rest) (ok : Bool) (data : Block) :
    ((State.sendToMemory { s with mp := s.mp.retire rest }).handOver e ok data).ReadsReferred := by
  have hfrz := State.sendToMemory_frz { s with mp := s.mp.retire rest }
  have hsp := State.sendToMemory_sp { s with mp := s.mp.retire rest }
  have hrefs := State.sendToMemory_filterMap MemEntry.readRef (fun _ => rfl) { s with mp := s.mp.retire rest }
  generalize State.sendToMemory { s with mp := s.mp.retire rest } = t at hfrz hsp hrefs
  unfold State.ReadsReferred at h
  rw [hq] at h
  have kept : e.readRef = none → t.ReadsReferred := fun he => by
    unfold State.ReadsReferred
    rw [hsp]
    exact (h.drop he).congr hrefs
  cases ha : e.access with
  | liveRead id =>
    have he : t.handOver e ok data = t.liveReadDone id ok data := by simp only [State.handOver, ha]
    obtain ⟨hm, hd⟩ := t.liveReadDone_mp_sp id ok data
    unfold State.ReadsReferred
    rw [he, hm, hd, hsp]
    exact (h.answer (by simp only [MemEntry.readRef, ha])).congr hrefs
  | liveWrite id mask d =>
    have he : t.handOver e ok data = t.liveWriteDone id ok := by simp only [State.handOver, ha]
    obtain ⟨-, hm, hd⟩ := t.liveWriteDone_eq id ok
    unfold State.ReadsReferred
    rw [he, hm, hd]
    exact kept (by simp only [MemEntry.readRef, ha])
  | drain mask d =>
    exact State.readsReferred_flowClosed.handOver (fun _ _ h => h) t e ok data (by simp [ha]) (by simp [ha])
      (by rw [hfrz]; exact hz) (kept (by simp only [MemEntry.readRef, ha]))
  | copier =>
    exact State.readsReferred_flowClosed.handOver (fun _ _ h => h) t e ok data (by simp [ha]) (by simp [ha])
      (by rw [hfrz]; exact hz) (kept (by simp only [MemEntry.readRef, ha]))

theorem State.readsReferred_eventClosed (Q : State → Prop) : EventClosed Q fun s => s.SlotKept ∧ s.ReadsReferred :=
  State.readsReferred_flowClosed.eventClosed (fun _ r _ _ h => h.add _ r.block (freshId_not_mem _))
    (fun s _ _ h => (State.readsReferred_flowClosed.arbitrate s _ _ h).grantTo _)
    (fun _ _ _ ok data hq _ _ hk h => h.complete hk.stall hq ok data)

end Sys2Proof.Machine


/-! ## Claims and references to outstanding writes -/

namespace Sys2Proof.Machine

/-! ### The numbers of the writes on their way -/

/-- The numbers of the records that are not claimed. -/
def writesOnTheirWay (writes : List WriteRec) : List Nat := (writes.filter fun r => !r.claimed).map WriteRec.id

theorem writesOnTheirWay_of_unclaimed {rs : List WriteRec} (h : ∀ r ∈ rs, r.claimed = false) :
    writesOnTheirWay rs = rs.map WriteRec.id := by
  unfold writesOnTheirWay
  rw [List.filter_eq_self.2 fun r hr => by simp [h r hr]]

theorem writesOnTheirWay_append (rs qs : List WriteRec) :
    writesOnTheirWay (rs ++ qs) = writesOnTheirWay rs ++ writesOnTheirWay qs := by
  simp [writesOnTheirWay]

/-- R126: the numbers on their way beside one claimed record. -/
theorem writesOnTheirWay_claimed {before after : List WriteRec} {r : WriteRec} (hr : r.claimed = true)
    (ho : ∀ x ∈ before ++ after, x.claimed = false) :
    writesOnTheirWay (before ++ r :: after) = (before ++ after).map WriteRec.id := by
  rw [← writesOnTheirWay_of_unclaimed ho, writesOnTheirWay_append, writesOnTheirWay_append]
  simp [writesOnTheirWay, hr]

/-- The number on its way belongs to no claimed record. -/
theorem id_ne_of_claimed {writes : List WriteRec} (hn : (writes.map WriteRec.id).Nodup) {id : Nat}
    (hid : id ∈ writesOnTheirWay writes) {r : WriteRec} (hr : r ∈ writes) (hc : r.claimed = true) : r.id ≠ id := by
  obtain ⟨q, hq, rfl⟩ := List.mem_map.1 hid
  obtain ⟨hq, hqc⟩ := List.mem_filter.1 hq
  intro he
  have : r = q := List.inj_on_of_nodup_map hn hr hq he
  simp [← this, hc] at hqc

/-! ### The claim of a stall and the references to outstanding writes -/

/-- `claims`, `head`, `writeNumbers` and `writes` of `State.StallKept` and `State.RefsKept`. -/
structure WritesReferred (stall : Option StallKind) (lane : List WriteReq) (writes : List WriteRec) (live : List LiveEntry)
    (queue : List MemEntry) : Prop where
  claims : writes.countP WriteRec.claimed = if stall = none then 0 else 1
  head : stall ≠ none → lane ≠ []
  numbers : (writes.map WriteRec.id).Nodup
  refs : (live.filterMap LiveEntry.writeRef ++ queue.filterMap MemEntry.writeRef).Perm (writesOnTheirWay writes)

namespace WritesReferred

variable {stall : Option StallKind} {lane : List WriteReq} {writes : List WriteRec} {live : List LiveEntry}
  {queue : List MemEntry}

/-- With no stall no record is claimed, and the lane may be anything. -/
theorem of_unclaimed {lane' : List WriteReq} (hc : ∀ r ∈ writes, r.claimed = false) (hn : (writes.map WriteRec.id).Nodup)
    (hr : (live.filterMap LiveEntry.writeRef ++ queue.filterMap MemEntry.writeRef).Perm (writes.map WriteRec.id)) :
    WritesReferred none lane' writes live queue where
  claims := List.countP_eq_zero.2 fun r h => by simp [hc r h]
  head h := absurd rfl h
  numbers := hn
  refs := by rwa [writesOnTheirWay_of_unclaimed hc]

/-- One record is claimed, with what stands before and after it, or none is. -/
theorem claimed_or_none (h : WritesReferred stall lane writes live queue) :
    (∃ before r after, writes = before ++ r :: after ∧ r.claimed = true ∧ ∀ x ∈ before ++ after, x.claimed = false) ∨
      ∀ r ∈ writes, r.claimed = false := by
  have hc := h.claims
  split at hc
  · exact .inr (countP_claimed_eq_zero hc)
  · exact .inl (exists_claimed hc)

/-- R126, R129, R130: after a straight take no record is claimed, and the write is on its way. -/
theorem straight {p : Sp} (h : WritesReferred stall p.wlane p.writes p.live queue) (w : WriteReq) (lane' : List WriteReq) :
    WritesReferred none lane' (p.straight w).writes (p.straight w).live queue := by
  rcases h.claimed_or_none with ⟨before, r, after, hw, hr, ho⟩ | hc
  · rw [Sp.straight_claimed hw hr ho]
    have hrefs := perm_joined (writesOnTheirWay_claimed hr ho ▸ hw ▸ h.refs) r.id
    refine of_unclaimed ?_ ?_ ?_
    · simpa [or_imp, forall_and] using ho
    · simpa [hw] using h.numbers
    · rw [List.filterMap_append]
      refine hrefs.trans ?_
      simp only [List.map_append, List.map_cons, List.append_assoc]
      exact (List.perm_append_singleton ..).append_left _
  · rw [Sp.straight_unclaimed hc]
    have hrefs := perm_joined (writesOnTheirWay_of_unclaimed hc ▸ h.refs) (freshId (p.writes.map WriteRec.id))
    refine of_unclaimed ?_ ?_ ?_
    · simpa [or_imp, forall_and] using hc
    · rw [List.map_append, List.nodup_append_comm]
      exact List.nodup_cons.2 ⟨freshId_not_mem _, h.numbers⟩
    · rw [List.filterMap_append, List.map_append]
      exact hrefs

/-- R126: after the release of the claim no record is claimed. -/
theorem release (h : WritesReferred stall lane writes live queue) (lane' : List WriteReq) :
    WritesReferred none lane' (writes.filter fun r => !r.claimed) live queue :=
  of_unclaimed (fun r hr => by simpa using (List.mem_filter.1 hr).2) (h.numbers.sublist (List.filter_sublist.map _)) h.refs

/-- R126, R127: a stall claims a record. -/
theorem claim {p : Sp} (h : WritesReferred none p.wlane p.writes p.live queue) (hl : p.wlane ≠ []) (w : WriteReq)
    (k : StallKind) : WritesReferred (some k) p.wlane (p.claim w).writes p.live queue where
  claims := by
    have hc : p.writes.countP WriteRec.claimed = 0 := h.claims
    simp [Sp.claim, hc]
  head _ := hl
  numbers := by
    unfold Sp.claim
    rw [List.map_append, List.nodup_append_comm]
    exact List.nodup_cons.2 ⟨freshId_not_mem _, h.numbers⟩
  refs := by
    unfold Sp.claim
    rw [writesOnTheirWay_append]
    simpa [writesOnTheirWay] using h.refs

/-- A live-queue entry moves to the memory queue. -/
theorem grant {q : LiveEntry} (h : WritesReferred stall lane writes (q :: live) queue) (b : Addr) (i : Bool) :
    WritesReferred stall lane writes live (queue ++ [{ access := q.access, block := b, issued := i }]) :=
  { h with
    refs := by
      have hp := h.refs
      rw [filterMap_cons_toList] at hp
      rw [List.filterMap_append, filterMap_cons_toList _ _ [], q.writeRef_access, List.filterMap_nil, List.append_nil]
      exact perm_sent hp }

/-- A live-queue entry of a read refers to no write. -/
theorem join {q : LiveEntry} (h : WritesReferred stall lane writes live queue) (hq : q.writeRef = none) :
    WritesReferred stall lane writes (live ++ [q]) queue :=
  { h with
    refs := by
      rw [List.filterMap_append, List.filterMap_cons_none hq, List.filterMap_nil, List.append_nil]
      exact h.refs }

/-- An access of no write leaves the memory queue or joins it. -/
theorem drop {e : MemEntry} (he : e.writeRef = none) (h : WritesReferred stall lane writes live (e :: queue)) :
    WritesReferred stall lane writes live queue :=
  { h with
    refs := by
      have hp := h.refs
      rwa [List.filterMap_cons_none he] at hp }

theorem append {e : MemEntry} (he : e.writeRef = none) (h : WritesReferred stall lane writes live queue) :
    WritesReferred stall lane writes live (queue ++ [e]) :=
  { h with
    refs := by
      rw [List.filterMap_append, List.filterMap_cons_none he, List.filterMap_nil, List.append_nil]
      exact h.refs }

theorem congr {queue' : List MemEntry} (h : WritesReferred stall lane writes live queue)
    (hq : queue'.filterMap MemEntry.writeRef = queue.filterMap MemEntry.writeRef) :
    WritesReferred stall lane writes live queue' :=
  { h with refs := hq.symm ▸ h.refs }

/-- The access of a write leaves the memory queue and its record the list; a claimed record has another number. -/
theorem answer {e : MemEntry} {id : Nat} (he : e.writeRef = some id) (h : WritesReferred stall lane writes live (e :: queue)) :
    WritesReferred stall lane (writes.filter fun q => decide (q.id ≠ id)) live queue := by
  have hp := h.refs
  rw [List.filterMap_cons_some he] at hp
  have hid : id ∈ writesOnTheirWay writes := mem_of_sent hp
  constructor
  case claims =>
    rw [List.countP_filter, ← h.claims]
    refine List.countP_congr fun r hr => ?_
    have := id_ne_of_claimed h.numbers hid hr
    simpa using this
  case head => exact h.head
  case numbers => exact h.numbers.sublist (List.filter_sublist.map _)
  case refs =>
    have hf := perm_answered hp (h.numbers.sublist (List.filter_sublist.map _))
    rw [writesOnTheirWay, List.filter_map, List.filter_filter] at hf
    rw [writesOnTheirWay, List.filter_filter]
    convert hf using 4
    exact Bool.and_comm _ _

end WritesReferred

abbrev State.WritesReferred (s : State) : Prop :=
  Machine.WritesReferred s.frz.stall s.sp.wlane s.sp.writes s.sp.live s.mp.queue

theorem State.writesReferred_flowClosed : FlowClosed State.WritesReferred where
  same e h := by
    unfold State.WritesReferred
    rw [e.sp, e.queue, e.stall]
    exact h
  reset := ⟨rfl, fun h => absurd rfl h, .nil, .nil⟩
  portReset s h := by
    have hr := h.release []
    have hids : (s.sp.portReset s.resetting).writes.map WriteRec.id =
        (s.sp.writes.filter fun r => !r.claimed).map WriteRec.id := by simp [Sp.portReset, Function.comp_def]
    refine .of_unclaimed (fun r hm => ?_) (by rw [hids]; exact hr.numbers) (by rw [hids]; exact h.refs)
    obtain ⟨q, hq, rfl⟩ := List.mem_map.1 hm
    simpa using (List.mem_filter.1 hq).2
  arriveWrite s q h := { h with head := fun _ => by simp }
  popWrite s hs h := by
    unfold State.WritesReferred at h
    rw [hs] at h
    refine { h with claims := ?_, head := fun hn => absurd hs hn }
    exact h.claims.trans (if_pos hs).symm
  straight _ w _ h := h.straight w _
  answered _ h := h.release _
  unstalled _ h := h.release _
  stalled s k w hl hs _ h := by
    unfold State.WritesReferred at h
    rw [hs] at h
    exact h.claim hl w k
  send s h := by
    unfold State.WritesReferred
    rw [State.sendToMemory_sp, State.sendToMemory_frz]
    exact h.congr (s.sendToMemory_filterMap _ fun _ => rfl)

theorem State.WritesReferred.grantTo {s : State} (h : s.WritesReferred) (r : Requester) : (s.grantTo r).WritesReferred := by
  unfold State.grantTo
  split
  · split
    · rename_i hl
      unfold State.WritesReferred at h
      rw [hl] at h
      exact h.grant _ _
    · exact h
  · split
    · exact h.append rfl
    · exact h
  · obtain ⟨reads, pos, slots, e⟩ := s.copierIssue_eq
    rw [e]
    exact h.append rfl

theorem State.liveReadDone_frz (s : State) (id : Nat) (ok : Bool) (data : Block) :
    (s.liveReadDone id ok data).frz = s.frz := by
  unfold State.liveReadDone
  split
  · simp only
    split <;> rfl
  · rfl

theorem State.WritesReferred.complete {s : State} (hz : s.frz.StallSound) (h : s.WritesReferred) {e : MemEntry}
    {rest : List MemEntry} (hq : s.mp.queue = e :: rest) (ok : Bool) (data : Block) :
    ((State.sendToMemory { s with mp := s.mp.retire rest }).handOver e ok data).WritesReferred := by
  have hfrz := State.sendToMemory_frz { s with mp := s.mp.retire rest }
  have hsp := State.sendToMemory_sp { s with mp := s.mp.retire rest }
  have hrefs := State.sendToMemory_filterMap MemEntry.writeRef (fun _ => rfl) { s with mp := s.mp.retire rest }
  generalize State.sendToMemory { s with mp := s.mp.retire rest } = t at hfrz hsp hrefs
  unfold State.WritesReferred at h
  rw [hq] at h
  have kept : e.writeRef = none → t.WritesReferred := fun he => by
    unfold State.WritesReferred
    rw [hfrz, hsp]
    exact (h.drop he).congr hrefs
  cases ha : e.access with
  | liveRead id =>
    have he : t.handOver e ok data = t.liveReadDone id ok data := by simp only [State.handOver, ha]
    obtain ⟨hm, hd⟩ := t.liveReadDone_mp_sp id ok data
    unfold State.WritesReferred
    rw [he, hm, hd, t.liveReadDone_frz]
    exact kept (by simp only [MemEntry.writeRef, ha])
  | liveWrite id mask d =>
    have he : t.handOver e ok data = t.liveWriteDone id ok := by simp only [State.handOver, ha]
    obtain ⟨hz', hm, hd⟩ := t.liveWriteDone_eq id ok
    unfold State.WritesReferred
    rw [he, hz', hm, hd, hfrz, hsp]
    exact (h.answer (by simp only [MemEntry.writeRef, ha])).congr hrefs
  | drain mask d =>
    exact State.writesReferred_flowClosed.handOver (fun _ _ h => h) t e ok data (by simp [ha]) (by simp [ha])
      (by rw [hfrz]; exact hz) (kept (by simp only [MemEntry.writeRef, ha]))
  | copier =>
    exact State.writesReferred_flowClosed.handOver (fun _ _ h => h) t e ok data (by simp [ha]) (by simp [ha])
      (by rw [hfrz]; exact hz) (kept (by simp only [MemEntry.writeRef, ha]))

theorem State.writesReferred_eventClosed (Q : State → Prop) : EventClosed Q fun s => s.SlotKept ∧ s.WritesReferred :=
  State.writesReferred_flowClosed.eventClosed (fun _ _ _ _ h => h.join rfl)
    (fun s _ _ h => (State.writesReferred_flowClosed.arbitrate s _ _ h).grantTo _)
    (fun _ _ _ ok data hq _ _ hk h => h.complete hk.stall hq ok data)

end Sys2Proof.Machine


/-! ## References to ISSUED journal entries -/

namespace Sys2Proof.Machine

/-! ### The entry of a block among the others (R31) -/

/-- An entry, with what stands before and after it: no other entry has its block. -/
theorem exists_entry {es : List JEntry} (hn : (es.map JEntry.block).Nodup) {e : JEntry} (he : e ∈ es) :
    ∃ before after, es = before ++ e :: after ∧ ∀ x ∈ before ++ after, x.block ≠ e.block := by
  obtain ⟨before, after, rfl⟩ := List.append_of_mem he
  refine ⟨before, after, rfl, fun x hx hb => ?_⟩
  rw [List.map_append, List.map_cons, List.nodup_middle, ← List.map_append] at hn
  exact (List.nodup_cons.1 hn).1 (List.mem_map.2 ⟨x, hx, hb⟩)

section

variable {j : Jrn} {before after : List JEntry} {e : JEntry} (hj : j.entries = before ++ e :: after)
  (ho : ∀ x ∈ before ++ after, x.block ≠ e.block)
include hj ho

theorem Jrn.update_entries (f : JEntry → JEntry) : (j.update e.block f).entries = before ++ f e :: after := by
  obtain ⟨hb, ha⟩ := List.forall_mem_append.1 ho
  have keep : ∀ l : List JEntry, (∀ x ∈ l, x.block ≠ e.block) → l.map (fun x => if x.block = e.block then f x else x) = l :=
    fun l hl => (List.map_congr_left fun x hx => if_neg (hl x hx)).trans (List.map_id l)
  simp only [Jrn.update, hj, List.map_append, List.map_cons, if_true]
  rw [keep _ hb, keep _ ha]

theorem Jrn.remove_entries : (j.remove e.block).entries = before ++ after := by
  obtain ⟨hb, ha⟩ := List.forall_mem_append.1 ho
  have keep : ∀ l : List JEntry, (∀ x ∈ l, x.block ≠ e.block) → l.filter (fun x => decide (x.block ≠ e.block)) = l :=
    fun l hl => List.filter_eq_self.2 fun x hx => decide_eq_true (hl x hx)
  show (j.entries.filter _) = _
  rw [hj, List.filter_append, List.filter_cons_of_neg (by simp), keep _ hb, keep _ ha]

end

/-! ### The blocks of the ISSUED entries -/

def issuedBlocks (entries : List JEntry) : List Addr :=
  (entries.filter fun e => decide (e.st = .issued)).map JEntry.block

theorem issuedBlocks_append (es fs : List JEntry) : issuedBlocks (es ++ fs) = issuedBlocks es ++ issuedBlocks fs := by
  simp [issuedBlocks]

theorem issuedBlocks_cons_issued {e : JEntry} (h : e.st = .issued) (es : List JEntry) :
    issuedBlocks (e :: es) = e.block :: issuedBlocks es := by simp [issuedBlocks, h]

theorem issuedBlocks_cons_other {e : JEntry} (h : e.st ≠ .issued) (es : List JEntry) :
    issuedBlocks (e :: es) = issuedBlocks es := by simp [issuedBlocks, h]

/-- A change that keeps each entry's block, and keeps it ISSUED or not ISSUED. -/
theorem issuedBlocks_map {f : JEntry → JEntry} (h : ∀ e, (f e).block = e.block ∧ ((f e).st = .issued ↔ e.st = .issued))
    (es : List JEntry) : issuedBlocks (es.map f) = issuedBlocks es := by
  unfold issuedBlocks
  rw [List.filter_map, List.map_map]
  congr 1
  · exact funext fun e => (h e).1
  · exact congrArg (List.filter · es) (funext fun e => by simp [(h e).2])

/-- The entry of a block on its way to memory is the ISSUED one. -/
theorem issued_of_find {j : Jrn} (hn : (j.entries.map JEntry.block).Nodup) {b : Addr} (hb : b ∈ issuedBlocks j.entries) :
    ∃ q, j.find b = some q ∧ q ∈ j.entries ∧ q.block = b ∧ q.st = .issued := by
  obtain ⟨e, he, rfl⟩ := List.mem_map.1 hb
  obtain ⟨he, hi⟩ := List.mem_filter.1 he
  cases hf : j.find e.block with
  | none => exact absurd (List.mem_map.2 ⟨e, he, rfl⟩) ((Jrn.find_eq_none _ _).1 hf)
  | some q =>
    have hq := List.mem_of_find?_eq_some hf
    have hqb : q.block = e.block := by simpa using List.find?_some hf
    have : q = e := List.inj_on_of_nodup_map hn hq he hqb
    exact ⟨q, rfl, hq, hqb, by rw [this]; simpa using hi⟩

/-! ### References to ISSUED entries (R32, R139) -/

/-- `drains` of `State.RefsKept`. -/
def DrainsReferred (entries : List JEntry) (queue : List MemEntry) : Prop :=
  (queue.filterMap MemEntry.drainRef).Perm (issuedBlocks entries)

abbrev State.DrainsReferred (s : State) : Prop := Machine.DrainsReferred s.jrn.entries s.mp.queue

theorem DrainsReferred.congr {es fs : List JEntry} {queue : List MemEntry} (h : DrainsReferred es queue)
    (hb : issuedBlocks fs = issuedBlocks es) : DrainsReferred fs queue := by
  unfold DrainsReferred
  rwa [hb]

theorem DrainsReferred.append {entries : List JEntry} {queue : List MemEntry} {e : MemEntry} (he : e.drainRef = none)
    (h : DrainsReferred entries queue) : DrainsReferred entries (queue ++ [e]) := by
  unfold DrainsReferred
  rw [List.filterMap_append, List.filterMap_cons_none he, List.filterMap_nil, List.append_nil]
  exact h

theorem DrainsReferred.drop {entries : List JEntry} {queue : List MemEntry} {e : MemEntry} (he : e.drainRef = none)
    (h : DrainsReferred entries (e :: queue)) : DrainsReferred entries queue := by
  unfold DrainsReferred at h
  rwa [List.filterMap_cons_none he] at h

theorem State.drainsReferred_flowClosed : FlowClosed State.DrainsReferred where
  same e h := by
    unfold State.DrainsReferred
    rw [e.entries, e.queue]
    exact h
  reset := .nil
  change _ f hf h := h.congr (issuedBlocks_map (fun e => ⟨(hf e).1, by rw [(hf e).2]⟩) _)
  hold s e _ he h := h.congr (by
    rw [issuedBlocks_append, issuedBlocks_cons_other (by simp [he])]
    exact List.append_nil _)
  leaveFrozen s h := h.congr (issuedBlocks_map (fun e => by split <;> simp [*]) _)
  send s h := by
    unfold State.DrainsReferred Machine.DrainsReferred
    rw [State.sendToMemory_jrn, s.sendToMemory_filterMap MemEntry.drainRef fun _ => rfl]
    exact h

/-- R48, R50: the entry that is issued was PENDING. -/
theorem State.DrainsReferred.grantTo {s : State} (hn : (s.jrn.entries.map JEntry.block).Nodup) (h : s.DrainsReferred)
    (r : Requester) : (s.grantTo r).DrainsReferred := by
  unfold State.grantTo
  split
  · split
    · exact h.append (LiveEntry.drainRef_access _ _ _)
    · exact h
  · split
    · rename_i e he
      have hel : e.eligible s.sp.live = true := List.find?_some he
      have hst : e.st = .pending := of_decide_eq_true (Bool.and_eq_true_iff.1 hel).1
      obtain ⟨before, after, hj, ho⟩ := exists_entry hn (List.mem_of_find?_eq_some he)
      show (List.filterMap _ (s.mp.queue ++ [_])).Perm (issuedBlocks (s.jrn.update e.block JEntry.issue).entries)
      rw [Jrn.update_entries hj ho, issuedBlocks_append, issuedBlocks_cons_issued rfl, List.filterMap_append]
      unfold State.DrainsReferred Machine.DrainsReferred at h
      rw [hj, issuedBlocks_append, issuedBlocks_cons_other (by simp [hst])] at h
      exact (h.append_right _).trans ((List.perm_append_singleton _ _).trans List.perm_middle.symm)
    · exact h
  · obtain ⟨reads, pos, slots, e⟩ := s.copierIssue_eq
    rw [e]
    exact h.append rfl

/-- R51 to R53: the drain write of an ISSUED entry completes; the entry is PENDING again or is removed. -/
theorem State.DrainsReferred.drainDone {s : State} (hz : s.frz.StallSound) {before after : List JEntry} {q : JEntry}
    (hj : s.jrn.entries = before ++ q :: after) (ho : ∀ x ∈ before ++ after, x.block ≠ q.block)
    (h : Machine.DrainsReferred (before ++ after) s.mp.queue) (ok : Bool) : (s.drainDone q ok).DrainsReferred := by
  have back : ∀ f : JEntry → JEntry, (f q).st ≠ .issued →
      State.DrainsReferred { s with jrn := s.jrn.update q.block f } := fun f hf => by
    show Machine.DrainsReferred (s.jrn.update q.block f).entries s.mp.queue
    unfold Machine.DrainsReferred at h ⊢
    rwa [Jrn.update_entries hj ho, issuedBlocks_append, issuedBlocks_cons_other hf, ← issuedBlocks_append]
  have gone : Machine.DrainsReferred (s.jrn.remove q.block).entries s.mp.queue := by
    rwa [Jrn.remove_entries hj ho]
  unfold State.drainDone
  split
  · split
    · exact back _ (by simp [JEntry.again])
    · exact State.drainsReferred_flowClosed.endDrain _ hz gone
  · split
    · exact back _ (by simp [JEntry.failed])
    · exact State.drainsReferred_flowClosed.endDrain _ hz gone

theorem State.liveReadDone_jrn (s : State) (id : Nat) (ok : Bool) (data : Block) :
    (s.liveReadDone id ok data).jrn = s.jrn := by
  unfold State.liveReadDone
  split
  · simp only
    split <;> rfl
  · rfl

theorem State.liveWriteDone_jrn (s : State) (id : Nat) (ok : Bool) : (s.liveWriteDone id ok).jrn = s.jrn := by
  unfold State.liveWriteDone
  split
  · simp only
    split <;> rfl
  · rfl

theorem State.DrainsReferred.complete {s : State} (hn : (s.jrn.entries.map JEntry.block).Nodup) (hz : s.frz.StallSound)
    (h : s.DrainsReferred) {e : MemEntry} {rest : List MemEntry} (hq : s.mp.queue = e :: rest) (ok : Bool) (data : Block) :
    ((State.sendToMemory { s with mp := s.mp.retire rest }).handOver e ok data).DrainsReferred := by
  have hfrz := State.sendToMemory_frz { s with mp := s.mp.retire rest }
  have hjrn := State.sendToMemory_jrn { s with mp := s.mp.retire rest }
  have hrefs := State.sendToMemory_filterMap MemEntry.drainRef (fun _ => rfl) { s with mp := s.mp.retire rest }
  generalize State.sendToMemory { s with mp := s.mp.retire rest } = t at hfrz hjrn hrefs
  unfold State.DrainsReferred at h
  rw [hq] at h
  have kept : e.drainRef = none → t.DrainsReferred := fun he => by
    unfold State.DrainsReferred Machine.DrainsReferred
    rw [hrefs, hjrn]
    exact h.drop he
  have hz : t.frz.StallSound := by rw [hfrz]; exact hz
  cases ha : e.access with
  | liveRead id =>
    have he : t.handOver e ok data = t.liveReadDone id ok data := by simp only [State.handOver, ha]
    unfold State.DrainsReferred
    rw [he, (t.liveReadDone_mp_sp id ok data).1, t.liveReadDone_jrn]
    exact kept (by simp only [MemEntry.drainRef, ha])
  | liveWrite id mask d =>
    have he : t.handOver e ok data = t.liveWriteDone id ok := by simp only [State.handOver, ha]
    unfold State.DrainsReferred
    rw [he, (t.liveWriteDone_eq id ok).2.1, t.liveWriteDone_jrn]
    exact kept (by simp only [MemEntry.drainRef, ha])
  | drain mask d =>
    have hd : e.drainRef = some e.block := by simp only [MemEntry.drainRef, ha]
    unfold Machine.DrainsReferred at h
    rw [List.filterMap_cons_some hd] at h
    obtain ⟨q, hf, hm, hb, hi⟩ := issued_of_find hn (h.subset List.mem_cons_self)
    obtain ⟨before, after, hj, ho⟩ := exists_entry hn hm
    have he : t.handOver e ok data = t.drainDone q ok := by
      have hf : t.jrn.find e.block = some q := by rw [hjrn]; exact hf
      simp only [State.handOver, ha, hf]
    rw [hj, issuedBlocks_append, issuedBlocks_cons_issued hi, hb] at h
    have hrest : Machine.DrainsReferred (before ++ after) t.mp.queue := by
      unfold Machine.DrainsReferred
      rw [hrefs, issuedBlocks_append]
      exact (h.trans List.perm_middle).cons_inv
    rw [he]
    exact State.DrainsReferred.drainDone hz (by rw [hjrn]; exact hj) ho hrest ok
  | copier =>
    have he : t.handOver e ok data = t.copierDone ok data := by simp only [State.handOver, ha]
    rw [he]
    exact State.drainsReferred_flowClosed.copierDone t ok data hz (kept (by simp only [MemEntry.drainRef, ha]))

theorem State.drainsReferred_eventClosed {Q : State → Prop} (hQ : ∀ s, Q s → (s.jrn.entries.map JEntry.block).Nodup) :
    EventClosed Q fun s => s.SlotKept ∧ s.DrainsReferred :=
  State.drainsReferred_flowClosed.eventClosed (fun _ _ _ _ h => h)
    (fun s _ hq h => by
      refine State.DrainsReferred.grantTo ?_ (State.drainsReferred_flowClosed.arbitrate s _ _ h) _
      exact hQ s hq)
    (fun s _ _ ok data hm _ hq hk h => h.complete (hQ s hq) hk.stall hm ok data)

/-! ### Every step keeps stalls and references -/

theorem State.journalKept_stepClosed : StepClosed fun s => True ∧ s.journalKept :=
  (State.journalKept_ledgerClosed.eventClosed fun _ => True).stepClosed .always

/-- Settles O9: the slot with its stall and FREEZE, the references to reads, those to writes with the claim, and those to
ISSUED entries, each kept by every step; the last needs that no two entries have one block. -/
theorem everyStepKeepsStallsAndReferences : Obligations.EveryStepKeepsStallsAndReferences := by
  unfold Obligations.EveryStepKeepsStallsAndReferences
  intro s t hj hs hr he
  have slot : s.SlotKept := ⟨⟨hs.marker, hs.exhaustion⟩, hs.freezeWaits⟩
  have reads : s.ReadsReferred := ⟨hr.readNumbers, hr.reads⟩
  have writes : s.WritesReferred := ⟨hs.claims, hs.head, hr.writeNumbers, hr.writes⟩
  have drains : s.DrainsReferred := hr.drains
  obtain ⟨-, slot', reads'⟩ :=
    ((State.readsReferred_eventClosed _).stepClosed .always).step s t ⟨trivial, slot, reads⟩ he
  obtain ⟨-, -, writes'⟩ :=
    ((State.writesReferred_eventClosed _).stepClosed .always).step s t ⟨trivial, slot, writes⟩ he
  obtain ⟨-, -, drains'⟩ :=
    ((State.drainsReferred_eventClosed fun _ h => h.2.1).stepClosed State.journalKept_stepClosed).step s t
      ⟨⟨trivial, hj⟩, slot, drains⟩ he
  exact ⟨⟨writes'.claims, writes'.head, slot'.stall.marker, slot'.freeze, slot'.stall.exhaustion⟩,
    ⟨reads'.numbers, writes'.numbers, reads'.refs, writes'.refs, drains'⟩⟩

end Sys2Proof.Machine


/-! ## Induction over the rows that neither take a READ nor serve the memory port

Within such a row the slot is evaluated, requests join it where no freeze can take effect, and no access is issued or
completes; `StepClosed`, which splits a step further, does not say this. -/

namespace Sys2Proof.Machine

/-- `t` has stall, slot, phases, link state, port and busy command as `s` has them. -/
structure State.SameRow (s t : State) : Prop where
  st : t.frz.st = s.frz.st := by rfl
  slot : t.frz.slot = s.frz.slot := by rfl
  stall : t.frz.stall = s.frz.stall := by rfl
  active : t.frz.active = s.frz.active := by rfl
  up : t.lnk.up = s.lnk.up := by rfl
  entries : t.jrn.entries = s.jrn.entries := by rfl
  sp : t.sp = s.sp := by rfl
  queue : t.mp.queue = s.mp.queue := by rfl
  credits : t.mp.credits = s.mp.credits := by rfl
  busy : t.mgmt.busy = s.mgmt.busy := by rfl
  code : t.mgmt.code = s.mgmt.code := by rfl

/-- What these rows do, as conditions on a property of states. -/
structure RowClosed (P : State → Prop) : Prop where
  same : ∀ {s t : State}, s.SameRow t → P s → P t
  reset : ∀ up : Bool, P { State.reset with lnk := { Lnk.reset with up := up } }
  portReset : ∀ s : State, P s → P { s with sp := s.sp.portReset s.resetting, frz := s.frz.portReset }
  writeCmd : ∀ (s : State) (code : Nat), P s → P (s.writeCmd code)
  breakEpoch : ∀ (s : State) (c : BreakCause), P s → P (s.breakEpoch c)
  stallExpire : ∀ s : State, P s → P s.stallExpire
  commit : ∀ s : State, P s → P s.commitEpoch
  lockGained : ∀ s : State, P s → P (State.evaluate { s with lnk := { s.lnk with up := true } })
  lose : ∀ s : State, P s → P { s with lnk := s.lnk.lose }
  freeze : ∀ (s : State) (src : Source) (k : Kind), s.canFreeze = true → P s → P (s.freezePoint src k)
  arriveRead : ∀ (s : State) (q : ReadReq), P s →
    P { s with sp := { s.sp with rlane := s.sp.rlane ++ [q], rcred := s.sp.rcred - 1 } }
  arriveWrite : ∀ (s : State) (q : WriteReq), P s →
    P { s with sp := { s.sp with wlane := s.sp.wlane ++ [q], wcred := s.sp.wcred - 1 } }
  popWrite : ∀ s : State, s.frz.stall = none → P s → P { s with sp := s.sp.popWrite s.resetting }
  straight : ∀ (s : State) (w : WriteReq), s.frz.stall = none → s.sp.writeRoom = true → P s → P (s.takeStraight w)
  merge : ∀ (s : State) (w : WriteReq), s.frz.stall = none → P s → P (s.takeMerge w)
  allocate : ∀ (s : State) (w : WriteReq) (i : Nat), s.frz.stall = none → s.handling w = .allocate i → P s →
    P (s.takeAllocate w i)
  exhaust : ∀ (s : State) (w : WriteReq), s.sp.wlane ≠ [] → s.frz.stall = none → s.handling w = .exhaustion →
    s.sp.writeRoom = true → P s → P (s.exhaust w)
  lineWaits : ∀ (s : State) (k : Kind), s.canFreeze = false → s.frz.st ≠ .frozen → s.frz.slot = none → P s →
    P { s with frz := { s.frz with slot := some { source := .line, kind := k } } }
  markerWaits : ∀ (s : State) (w : WriteReq) (k : Kind), s.canFreeze = false → s.frz.st ≠ .frozen → s.frz.slot = none →
    s.sp.wlane ≠ [] → s.frz.stall = none → s.sp.writeRoom = true → P s →
    P (State.beginStall { s with frz := { s.frz with slot := some { source := .marker, kind := k } } } .marker w)

/-- The rows in which a READ is taken, an access is granted, or one completes. -/
def isMemoryRow : Instr → Bool
  | .takeRead | .grant | .completion _ _ => true
  | _ => false

namespace RowClosed

variable {P : State → Prop} (c : RowClosed P)
include c

/-! ### Write accesses and FREEZE_REQ -/

theorem startRound (s : State) (n : Nat) (h : P s) : P (s.startRound n) := by
  unfold State.startRound
  split
  · exact c.breakEpoch s _ h
  · exact c.same {} h

theorem writeClosed : WriteClosed P where
  writeCmd := c.writeCmd
  mgmt _ _ _ _ _ _ h5 h6 h := c.same { busy := h5, code := h6 } h
  alert _ _ h := c.same {} h
  stats _ _ h := c.same {} h
  kinds _ _ _ h := c.same {} h
  stallLimit _ _ h := c.same {} h
  epochLimit _ _ h := c.same {} h
  hwm _ _ _ h := c.same {} h
  lwm _ _ _ _ h := c.same {} h
  policy _ _ h := c.same {} h
  fault _ _ h := c.same {} h
  staging _ _ _ h := c.same {} h
  ackTmo _ _ _ h := c.same {} h
  retryLim _ _ _ _ h := c.same {} h
  pauseLim _ _ h := c.same {} h
  weights _ _ _ _ _ h := c.same {} h
  breakEpoch := c.breakEpoch
  stallExpire := c.stallExpire
  ackExpire s h := c.startRound (s.count .ackTimeouts) _ (c.same {} h)

theorem lineRequest (s : State) (h : P s) : P s.lineRequest := by
  unfold State.lineRequest
  split
  · exact c.same {} h
  split
  · exact c.freeze s _ _ ‹_› h
  rename_i hc
  split
  · exact c.same {} h
  · rename_i hn
    obtain ⟨hf, hq⟩ := not_or.1 hn
    exact c.lineWaits s _ (Bool.not_eq_true _ ▸ hc) hf (by simpa using hq) h

theorem sampleLine (s : State) (high : Bool) (h : P s) : P (s.sampleLine high) := by
  unfold State.sampleLine
  simp only
  split
  · exact c.lineRequest _ (c.same {} h)
  · exact c.same {} h

/-! ### The take of a WRITE -/

theorem plainWrite (s : State) (w : WriteReq) (hl : s.sp.wlane ≠ []) (hs : s.frz.stall = none) (h : P s) :
    P (s.plainWrite w) := by
  unfold State.plainWrite
  split
  · exact c.merge s w hs h
  · exact c.allocate s w _ hs ‹_› h
  · split
    · exact c.exhaust s w hl hs ‹_› ‹_› h
    · exact h
  · split
    · exact c.straight s w hs ‹_› h
    · exact h

theorem markerWrite (s : State) (w : WriteReq) (hl : s.sp.wlane ≠ []) (hs : s.frz.stall = none)
    (hr : s.sp.writeRoom = true) (h : P s) : P (s.markerWrite w) := by
  have refused : P (s.markerRefused.plainWrite w) := c.plainWrite s.markerRefused w hl hs (c.same {} h)
  unfold State.markerWrite
  split
  · exact refused
  split
  · exact c.freeze (s.takeStraight w) _ _ ‹_› (c.straight s w hs hr h)
  rename_i hc
  split
  · exact refused
  · rename_i hn
    obtain ⟨hf, hq⟩ := not_or.1 hn
    exact c.markerWaits s w _ (Bool.not_eq_true _ ▸ hc) hf (by simpa using hq) hl hs hr h

theorem takeWrite (s : State) (h : P s) :
    P (match s.sp.wlane with | w :: _ => if s.frz.stall.isSome then s else s.examineWrite w | [] => s) := by
  split
  · rename_i w rest e
    have hl : s.sp.wlane ≠ [] := by simp [e]
    split
    · exact h
    have hs : s.frz.stall = none := by simpa using ‹¬s.frz.stall.isSome = true›
    unfold State.examineWrite
    split
    · exact c.same {} (c.popWrite s hs h)
    split
    · exact c.same {} (c.popWrite s hs h)
    split
    · split
      · exact c.markerWrite s w hl hs ‹_› h
      · exact h
    · exact c.plainWrite s w hl hs h
  · exact h

/-! ### Inbound frames -/

theorem notCurrent (s : State) (k : EpochClass) (h : P s) : P (s.notCurrent k) := by
  unfold State.notCurrent
  split
  · exact c.breakEpoch s _ h
  · exact c.same {} h

theorem receiveAck (s : State) (epoch : Word16) (n : Word32) (h : P s) : P (s.receiveAck epoch n) := by
  unfold State.receiveAck State.ackCurrent
  split
  · split
    · exact c.same {} h
    split
    · exact c.breakEpoch s _ h
    · exact c.same {} h
  · exact c.notCurrent s _ h

theorem receiveNak (s : State) (epoch : Word16) (n : Word32) (h : P s) : P (s.receiveNak epoch n) := by
  unfold State.receiveNak State.nakCurrent
  split
  · split
    · exact c.breakEpoch _ _ (c.same {} h)
    · exact c.startRound _ _ (c.same {} h)
  · exact c.notCurrent s _ h

theorem receiveCommit (s : State) (epoch : Word16) (h : P s) : P (s.receiveCommit epoch) := by
  unfold State.receiveCommit
  split
  · split
    · exact c.commit _ (c.same {} h)
    · exact c.breakEpoch s _ h
  · exact c.notCurrent s _ h

theorem receiveReject (s : State) (epoch : Word16) (reason : Byte) (h : P s) : P (s.receiveReject epoch reason) := by
  unfold State.receiveReject
  split
  · exact c.breakEpoch _ _ (c.same {} h)
  · exact c.notCurrent s _ h

theorem receiveRaw (s : State) (f : RawFrame) (h : P s) : P (s.receiveRaw f) := by
  unfold State.receiveRaw
  split
  · exact c.same {} h
  split
  · exact c.receiveAck s _ _ h
  split
  · exact c.receiveNak s _ _ h
  split
  · exact c.same {} h
  split
  · exact c.receiveCommit s _ h
  · exact c.receiveReject s _ _ h

omit c in
theorem inbound (s : State) (f : State → State) (h : P s) (hf : P (f s)) : P (s.inbound f) := by
  unfold State.inbound
  split
  · exact hf
  · exact h

/-! ### Every such row -/

/-- Every other row off the management link keeps the property. -/
theorem row {i : Instr} {s t : State} (hm : onManagementLink i = false) (hn : isMemoryRow i = false) (h : P s)
    (he : Machine.exec i s = .next t) : P t := by
  cases i <;> cases hm <;> cases hn <;> obtain rfl := Host.Outcome.next.inj he
  case controlledResetFinalStep =>
    split
    · exact c.same {} (c.reset s.lnk.up)
    · exact h
  case powerOnReset => exact c.same {} (c.reset false)
  case sportReset => exact c.same {} (c.portReset s h)
  case freezeReqEdge => exact c.sampleLine s true h
  case lockGained =>
    split
    · exact h
    · exact c.lockGained (s.raise .linkUp) (c.same {} h)
  case lossOfLock =>
    split
    · exact c.breakEpoch _ _ (c.same {} (c.lose s h))
    · exact h
  case requestArrives r =>
    cases r with
    | read q =>
      simp only
      split
      · exact c.same {} h
      · exact c.arriveRead s q h
    | write q =>
      simp only
      split
      · exact c.same {} h
      · exact c.arriveWrite s q h
  case takeWrite => exact c.takeWrite s h
  case placeFillFrame =>
    split
    · split
      · exact c.same {} h
      · exact h
    · exact h
  case buildEnd =>
    split
    · split
      · exact c.same { active := s.frz.active_update _ fun _ => rfl } h
      · exact h
    · exact h
  case startTransmission =>
    split
    · exact c.same { active := s.frz.active_update _ fun _ => by split <;> rfl } h
    · exact h
  case startAbandon =>
    split
    · split
      · exact c.same {} h
      · exact h
    · exact h
  case transmissionEnd =>
    split
    · exact c.same {} h
    · exact h
  case ack => exact inbound s _ h (c.receiveAck s _ _ h)
  case nak => exact inbound s _ h (c.receiveNak s _ _ h)
  case pause => exact inbound s _ h (c.same {} h)
  case commit => exact inbound s _ h (c.receiveCommit s _ h)
  case reject => exact inbound s _ h (c.receiveReject s _ _ h)
  case inboundFrameDiscarded f => exact inbound s _ h (c.receiveRaw s f h)
  case ackTimerExpiry =>
    split
    · exact c.writeClosed.ackExpire s h
    · exact h
  case pauseTimerExpiry =>
    split
    · exact c.same {} h
    · exact h
  case continuousPauseExpiry =>
    split
    · exact c.breakEpoch s _ h
    · exact h
  case stallTimerExpiry =>
    split
    · exact c.stallExpire s h
    · exact h
  case epochTimerExpiry =>
    split
    · exact c.breakEpoch s _ h
    · exact h
  case frameTimerExpiry =>
    split
    · exact c.same {} h
    · exact h
  case tickDividerApplied => exact c.same {} h
  case tick high => exact c.sampleLine _ high (c.same {} h)

/-- Every row that neither takes a READ nor serves the memory port keeps the property. -/
theorem exec {i : Instr} {s t : State} (hn : isMemoryRow i = false) (h : P s) (he : Machine.exec i s = .next t) : P t := by
  cases hm : onManagementLink i with
  | false => exact c.row hm hn h he
  | true =>
    obtain ⟨bits, hb⟩ := exec_onManagementLink i s hm
    obtain rfl := Host.Outcome.next.inj (hb.symm.trans he)
    exact c.writeClosed.feed bits s h (fun _ _ h => c.same {} h) (fun _ _ h => c.same {} h)

end RowClosed

end Sys2Proof.Machine


/-! ## Capacities: lists, memory queue and journal entries (O10) -/

namespace Sys2Proof.Machine

/-- What survives the changes of the flow survives, beside the slot and its stall, the rows that neither take a READ nor serve
the memory port. -/
theorem FlowClosed.rowClosed {X : State → Prop} (c : FlowClosed X) : RowClosed fun s => s.SlotKept ∧ X s where
  same e h :=
    ⟨h.1.congr e.slot e.stall e.st e.busy e.code,
      c.same { st := e.st, stall := e.stall, entries := e.entries, sp := e.sp, queue := e.queue } h.2⟩
  reset _ := ⟨State.SlotKept.reset.congr, c.same {} c.reset⟩
  portReset s h := ⟨h.1.portReset, c.portReset s h.2⟩
  writeCmd s code h := ⟨h.1.writeCmd code, (c.commandKept.writeCmd s code h.1.busyWaits ⟨h.1.stall, h.2⟩).2⟩
  breakEpoch s b h := ⟨h.1.breakEpoch b, c.breakEpoch s b h.1.stall h.2⟩
  stallExpire s h := ⟨h.1.stallExpire, c.stallExpire s h.1.stall h.2⟩
  commit s h := ⟨h.1.commitEpoch, c.commitEpoch s h.1.stall h.2⟩
  lockGained s h := by
    have hu : State.SlotKept { s with lnk := { s.lnk with up := true } } := h.1.congr
    exact ⟨hu.evaluate, c.evaluate _ hu.stall (c.same {} h.2)⟩
  lose _ h := ⟨h.1.congr, c.same {} h.2⟩
  freeze s src k _ h := ⟨h.1.freezePoint src k, c.freezePoint s src k h.2⟩
  arriveRead s q h := ⟨h.1.congr, c.arriveRead s q h.2⟩
  arriveWrite s q h := ⟨h.1.congr, c.arriveWrite s q h.2⟩
  popWrite s hs h := ⟨h.1.congr, c.popWrite s hs h.2⟩
  straight s w hs hr h := ⟨h.1.taken hs, c.takeStraight s w (fun _ => hr) h.2⟩
  merge s w hs h := ⟨h.1.taken hs, c.takeMerge s w h.2⟩
  allocate s w i hs hh h := ⟨h.1.taken hs, c.takeAllocate s w i hh h.2⟩
  exhaust s w hl hs hh hr h := ⟨h.1.exhaust hs hh, c.exhaust s w h.1.stall hl hs hh hr h.2⟩
  lineWaits _ k _ _ hq h := ⟨h.1.lineWaits hq k, c.same {} h.2⟩
  markerWaits _ w k _ _ hq hl hs hr h := ⟨h.1.markerWaits hq w k, c.beginStall _ .marker w hl hs hr (c.same {} h.2)⟩

/-! ### Records and live-queue slots, those kept for a stalled write included (R126 to R130) -/

/-- What a stalled write keeps of each resource. -/
def keptForStall (stall : Option StallKind) : Nat := if stall = none then 0 else 1

theorem keptForStall_stalled {stall : Option StallKind} (h : stall ≠ none) : keptForStall stall = 1 := if_neg h

theorem keptForStall_le_one (stall : Option StallKind) : keptForStall stall ≤ 1 := by
  unfold keptForStall
  split
  · exact Nat.zero_le 1
  · exact Nat.le_refl 1

theorem length_writes (writes : List WriteRec) :
    writes.length = (writesOnTheirWay writes).length + writes.countP WriteRec.claimed := by
  unfold writesOnTheirWay
  rw [List.length_map, ← List.countP_eq_length_filter, Nat.add_comm]
  simpa using writes.length_eq_countP_add_countP WriteRec.claimed

/-- A claim may be lost, so it is the resource kept for the stalled write that is counted. -/
structure ListsBounded (stall : Option StallKind) (reads : List ReadRec) (writes : List WriteRec) (live : List LiveEntry) :
    Prop where
  reads : reads.length ≤ 32
  claims : writes.countP WriteRec.claimed ≤ keptForStall stall
  writes : (writesOnTheirWay writes).length + keptForStall stall ≤ 16
  live : live.length + keptForStall stall ≤ 16

namespace ListsBounded

variable {stall : Option StallKind} {reads : List ReadRec} {writes : List WriteRec} {live : List LiveEntry}

/-- With no record claimed and no stall. -/
theorem of_unclaimed (hr : reads.length ≤ 32) (hc : ∀ r ∈ writes, r.claimed = false) (hw : writes.length ≤ 16)
    (hl : live.length ≤ 16) : ListsBounded none reads writes live where
  reads := hr
  claims := (List.countP_eq_zero.2 fun r h => by simp [hc r h]).le
  writes := by rwa [writesOnTheirWay_of_unclaimed hc, List.length_map]
  live := hl

/-- A write taken straight uses what the stall kept for it, or what is free. -/
theorem straight {p : Sp} (h : ListsBounded stall p.reads p.writes p.live) (hr : stall = none → p.writeRoom = true)
    (w : WriteReq) : ListsBounded none p.reads (p.straight w).writes (p.straight w).live := by
  have hlen := length_writes p.writes
  have hone := keptForStall_le_one stall
  have hclaims := h.claims
  have hwrites := h.writes
  have hlive := h.live
  have hroom : (writesOnTheirWay p.writes).length + 1 ≤ 16 ∧ p.live.length + 1 ≤ 16 := by
    by_cases hs : stall = none
    · have := p.writeRoom_iff.1 (hr hs)
      omega
    · rw [keptForStall_stalled hs] at hwrites hlive
      omega
  obtain hc | hc : p.writes.countP WriteRec.claimed = 0 ∨ p.writes.countP WriteRec.claimed = 1 := by omega
  · have hc' := countP_claimed_eq_zero hc
    rw [Sp.straight_unclaimed hc']
    refine of_unclaimed h.reads ?_ ?_ ?_
    · simpa [or_imp, forall_and] using hc'
    · simp only [List.length_append, List.length_singleton]
      omega
    · simpa using hroom.2
  · obtain ⟨before, r, after, he, hr, ho⟩ := exists_claimed hc
    rw [Sp.straight_claimed he hr ho]
    refine of_unclaimed h.reads ?_ ?_ ?_
    · simpa [or_imp, forall_and] using ho
    · have hold : p.writes.length = (before ++ r :: after).length := congrArg _ he
      simp only [List.length_append, List.length_cons] at hold ⊢
      omega
    · simpa using hroom.2

theorem release (h : ListsBounded stall reads writes live) :
    ListsBounded none reads (writes.filter fun r => !r.claimed) live := by
  have hw := h.writes
  have hl := h.live
  refine of_unclaimed h.reads (fun r hr => by simpa using (List.mem_filter.1 hr).2) ?_ (by omega)
  unfold writesOnTheirWay at hw
  rw [List.length_map] at hw
  omega

/-- R126, R127: a stall keeps a record and a live-queue slot that are free. -/
theorem claim {p : Sp} (h : ListsBounded none p.reads p.writes p.live) (hr : p.writeRoom = true) (w : WriteReq)
    (k : StallKind) : ListsBounded (some k) p.reads (p.claim w).writes p.live := by
  have hc : p.writes.countP WriteRec.claimed = 0 := Nat.le_zero.1 h.claims
  have hlen := length_writes p.writes
  have hroom := p.writeRoom_iff.1 hr
  constructor
  case reads => exact h.reads
  case claims => simp [Sp.claim, hc, keptForStall]
  case writes =>
    unfold Sp.claim
    rw [writesOnTheirWay_append, List.length_append, keptForStall_stalled (by simp)]
    simp only [writesOnTheirWay, List.filter_cons, List.filter_nil, Bool.not_true, if_neg Bool.false_ne_true, List.map_nil,
      List.length_nil] at hlen ⊢
    omega
  case live =>
    rw [keptForStall_stalled (by simp)]
    omega

/-- R131: a record leaves its list, a claimed one too. -/
theorem dropWrite (h : ListsBounded stall reads writes live) (id : Nat) :
    ListsBounded stall reads (writes.filter fun q => decide (q.id ≠ id)) live :=
  { h with
    claims := (List.filter_sublist.countP_le).trans h.claims
    writes := by
      have hs : (writesOnTheirWay (writes.filter fun q => decide (q.id ≠ id))).Sublist (writesOnTheirWay writes) :=
        (List.filter_sublist.filter _).map _
      exact (Nat.add_le_add_right hs.length_le _).trans h.writes }

theorem dropRead (h : ListsBounded stall reads writes live) (id : Nat) :
    ListsBounded stall (reads.filter fun q => decide (q.id ≠ id)) writes live :=
  { h with reads := List.filter_sublist.length_le.trans h.reads }

/-- R128 to R130: the bounds of `State.CapacityKept`. -/
theorem bounds (h : ListsBounded stall reads writes live) :
    reads.length ≤ 32 ∧ writes.length ≤ 16 ∧ live.length + writes.countP WriteRec.claimed ≤ 16 := by
  have hlen := length_writes writes
  have hc := h.claims
  have hw := h.writes
  have hl := h.live
  exact ⟨h.reads, by omega, by omega⟩

end ListsBounded

abbrev State.ListsBounded (s : State) : Prop := Machine.ListsBounded s.frz.stall s.sp.reads s.sp.writes s.sp.live

theorem State.listsBounded_of_kept {s : State} (hs : s.StallKept) (h : s.CapacityKept) : s.ListsBounded := by
  have hclaims : s.sp.writes.countP WriteRec.claimed = keptForStall s.frz.stall := hs.claims
  have hlen := length_writes s.sp.writes
  have hw := h.writes
  have hl := h.live
  exact ⟨h.reads, hclaims.le, by omega, by omega⟩

theorem State.listsBounded_flowClosed : FlowClosed State.ListsBounded where
  same e h := by
    unfold State.ListsBounded
    rw [e.sp, e.stall]
    exact h
  reset := .of_unclaimed (by decide) (fun _ h => by cases h) (by decide) (by decide)
  portReset s h := by
    have hr := h.release
    refine .of_unclaimed (by simpa [Sp.portReset] using h.reads) (fun r hm => ?_) ?_ (hr.live)
    · obtain ⟨q, hq, rfl⟩ := List.mem_map.1 hm
      simpa using (List.mem_filter.1 hq).2
    · simpa [Sp.portReset] using hr.bounds.2.1
  straight _ w hr h := h.straight hr w
  answered _ h := h.release
  unstalled _ h := h.release
  stalled s k w _ hs hr h := by
    unfold State.ListsBounded at h
    rw [hs] at h
    exact h.claim hr w k
  send s h := by
    unfold State.ListsBounded
    rw [State.sendToMemory_sp, State.sendToMemory_frz]
    exact h

/-- R130: a grant takes an entry from the live queue or leaves it as it is. -/
theorem State.ListsBounded.grantTo {s : State} (h : s.ListsBounded) (r : Requester) : (s.grantTo r).ListsBounded := by
  unfold State.grantTo
  split
  · split
    · rename_i q rest hl
      have hlive := h.live
      rw [hl, List.length_cons] at hlive
      exact { h with live := (by omega : rest.length + keptForStall s.frz.stall ≤ 16) }
    · exact h
  · split
    · exact h
    · exact h
  · obtain ⟨reads, pos, slots, e⟩ := s.copierIssue_eq
    rw [e]
    exact h

theorem State.ListsBounded.handOver {s : State} (hz : s.frz.StallSound) (h : s.ListsBounded) (e : MemEntry) (ok : Bool)
    (data : Block) : (s.handOver e ok data).ListsBounded := by
  cases ha : e.access with
  | liveRead id =>
    have he : s.handOver e ok data = s.liveReadDone id ok data := by simp only [State.handOver, ha]
    unfold State.ListsBounded
    rw [he, s.liveReadDone_frz, (s.liveReadDone_mp_sp id ok data).2]
    exact h.dropRead id
  | liveWrite id mask d =>
    have he : s.handOver e ok data = s.liveWriteDone id ok := by simp only [State.handOver, ha]
    obtain ⟨hf, -, hd⟩ := s.liveWriteDone_eq id ok
    unfold State.ListsBounded
    rw [he, hf, hd]
    exact h.dropWrite id
  | drain mask d =>
    exact State.listsBounded_flowClosed.handOver (fun _ _ h => h) s e ok data (by simp [ha]) (by simp [ha]) hz h
  | copier =>
    exact State.listsBounded_flowClosed.handOver (fun _ _ h => h) s e ok data (by simp [ha]) (by simp [ha]) hz h

/-- R124: a READ taken to memory has room: the stalled write's claim is still counted where the step begins. -/
theorem State.ListsBounded.addRead {s : State} (h : s.ListsBounded)
    (hc : s.sp.writes.countP WriteRec.claimed = keptForStall s.frz.stall) (r : ReadReq) (v : Option Capture)
    (hr : s.sp.readRoom = true) : State.ListsBounded { s with sp := s.sp.addRead r v } := by
  obtain ⟨hreads, hlive⟩ := s.sp.readRoom_iff.1 hr
  refine { h with reads := ?_, live := ?_ }
  · simp only [Sp.addRead, List.length_append, List.length_singleton]
    omega
  · simp only [Sp.addRead, List.length_append, List.length_singleton]
    omega

end Sys2Proof.Machine


/-! ## Capacities: the memory queue and the states of journal entries -/

namespace Sys2Proof.Machine

/-! ### What grants and completions do to the memory queue -/

/-- R139: a grant appends an access that waits, or leaves the memory queue as it is. -/
theorem State.grantTo_mp (s : State) (r : Requester) :
    (s.grantTo r).mp = s.mp ∨ ∃ a b, (s.grantTo r).mp = s.mp.append a b := by
  unfold State.grantTo
  split
  · split
    · exact .inr ⟨_, _, rfl⟩
    · exact .inl rfl
  · split
    · exact .inr ⟨_, _, rfl⟩
    · exact .inl rfl
  · obtain ⟨reads, pos, slots, e⟩ := s.copierIssue_eq
    rw [e]
    exact .inr ⟨_, _, rfl⟩

/-- R147: handing over a completion leaves the memory port as it is. -/
theorem State.handOver_mp (s : State) (e : MemEntry) (ok : Bool) (data : Block) : (s.handOver e ok data).mp = s.mp := by
  unfold State.handOver
  split
  · exact (s.liveReadDone_mp_sp _ ok data).1
  · exact (s.liveWriteDone_eq _ ok).2.1
  · split
    · unfold State.drainDone
      split
      · split
        · rfl
        · exact (State.undisturbed_endDrain _).mp
      · split
        · rfl
        · exact (State.undisturbed_endDrain _).mp
    · rfl
  · unfold State.copierDone State.copierReadDone
    simp only
    split
    · rfl
    split
    · split
      · split
        · exact (State.undisturbed_captureComplete _).mp
        · rfl
      · rfl
    · exact (State.undisturbed_breakEpoch _ _).mp

theorem Mp.seek_won_queue (work : Requester → Bool) (k : Nat) (m : Mp) :
    (Mp.seek work k m).won.queue = m.queue ∧ (Mp.seek work k m).won.credits = m.credits := by
  obtain ⟨pos, n, cur, hs, -⟩ := Mp.seek_eq work k m
  obtain ⟨pos', n', cur', hw, -⟩ := (Mp.seek work k m).won_eq
  rw [hw, hs]
  exact ⟨rfl, rfl⟩

/-! ### The memory queue (R139) -/

/-- `memory` and `issuedFirst` of `State.CapacityKept`. -/
structure QueueBounded (queue : List MemEntry) : Prop where
  length : queue.length ≤ 32
  issuedFirst : queue.Pairwise fun a b => b.issued = true → a.issued = true

theorem pairwise_issueOldest {queue : List MemEntry}
    (h : queue.Pairwise fun a b => b.issued = true → a.issued = true) :
    (issueOldest queue).Pairwise fun a b => b.issued = true → a.issued = true := by
  induction queue with
  | nil => exact .nil
  | cons e es ih =>
    obtain ⟨-, hes⟩ := List.pairwise_cons.1 h
    unfold issueOldest
    split
    · rename_i he
      exact List.pairwise_cons.2 ⟨fun _ _ _ => he, ih hes⟩
    · exact List.pairwise_cons.2 ⟨fun _ _ _ => rfl, hes⟩

namespace QueueBounded

theorem append {m : Mp} (h : QueueBounded m.queue) (hf : m.slotFree = true) (a : MemAccess) (b : Addr) :
    QueueBounded (m.append a b).queue where
  length := by
    have hlt : m.queue.length < 32 := of_decide_eq_true hf
    simp only [Mp.append, List.length_append, List.length_singleton]
    omega
  issuedFirst := by
    unfold Mp.append
    exact List.pairwise_append.2 ⟨h.issuedFirst, List.pairwise_singleton _ _, fun _ _ b hb => by
      rw [List.mem_singleton.1 hb]
      nofun⟩

theorem tail {e : MemEntry} {rest : List MemEntry} (h : QueueBounded (e :: rest)) : QueueBounded rest where
  length := by
    have := h.length
    rw [List.length_cons] at this
    omega
  issuedFirst := (List.pairwise_cons.1 h.issuedFirst).2

theorem send {s : State} (h : QueueBounded s.mp.queue) : QueueBounded s.sendToMemory.mp.queue where
  length := by
    obtain ⟨q, n, o, e, -, hl⟩ := s.sendToMemory_eq
    rw [e]
    exact hl.le.trans h.length
  issuedFirst := by
    unfold State.sendToMemory
    split
    · split
      · exact pairwise_issueOldest h.issuedFirst
      · exact h.issuedFirst
    · exact h.issuedFirst

end QueueBounded

theorem State.queueBounded_flowClosed : FlowClosed fun s => QueueBounded s.mp.queue where
  same e h := by
    rw [e.queue]
    exact h
  reset := ⟨by decide, .nil⟩
  send _ h := h.send

theorem State.queueBounded_eventClosed (Q : State → Prop) :
    EventClosed Q fun s => s.SlotKept ∧ QueueBounded s.mp.queue :=
  State.queueBounded_flowClosed.eventClosed (fun _ _ _ _ h => h)
    (fun s hg _ h => by
      have hq := (Mp.seek_won_queue s.hasWork arbiterLooks s.mp).1
      have hf : (Mp.seek s.hasWork arbiterLooks s.mp).won.slotFree = true := by
        unfold Mp.slotFree
        rw [hq]
        exact (Bool.and_eq_true_iff.1 hg).1
      rcases State.grantTo_mp { s with mp := (Mp.seek s.hasWork arbiterLooks s.mp).won }
        (Mp.seek s.hasWork arbiterLooks s.mp).pos with he | ⟨a, b, he⟩
      · rw [he]
        exact hq.symm ▸ h
      · rw [he]
        exact QueueBounded.append (hq.symm ▸ h) hf a b)
    (fun s e rest ok data hq _ _ _ h => by
      rw [State.handOver_mp]
      rw [hq] at h
      exact QueueBounded.send (s := { s with mp := s.mp.retire rest }) h.tail)

/-! ### The states of journal entries (R32, R48) -/

/-- `drains` and `held` of `State.CapacityKept`. -/
structure EntriesBounded (st : FreezeState) (entries : List JEntry) : Prop where
  drains : entries.countP (fun e => decide (e.st = .issued)) ≤ 8
  held : ∀ e ∈ entries, e.st = .held → st = .frozen

namespace EntriesBounded

variable {st : FreezeState} {entries : List JEntry}

theorem nil (st : FreezeState) : EntriesBounded st [] := ⟨Nat.zero_le 8, fun _ h => by cases h⟩

/-- Entries change to states that are neither new ISSUED nor new HELD ones. -/
theorem map (h : EntriesBounded st entries) (f : JEntry → JEntry) (hi : ∀ e, (f e).st = .issued → e.st = .issued)
    (hh : ∀ e, (f e).st = .held → e.st = .held) : EntriesBounded st (entries.map f) where
  drains := by
    rw [List.countP_map]
    refine (List.countP_mono_left fun e _ he => ?_).trans h.drains
    exact decide_eq_true (hi e (of_decide_eq_true he))
  held e he hs := by
    obtain ⟨d, hd, rfl⟩ := List.mem_map.1 he
    exact h.held d hd (hh d hs)

theorem filter (h : EntriesBounded st entries) (p : JEntry → Bool) : EntriesBounded st (entries.filter p) where
  drains := List.filter_sublist.countP_le.trans h.drains
  held e he := h.held e (List.mem_filter.1 he).1

theorem hold (h : EntriesBounded .frozen entries) {e : JEntry} (he : e.st = .held) :
    EntriesBounded .frozen (entries ++ [e]) where
  drains := by simpa [he] using h.drains
  held _ _ _ := rfl

/-- R32: no entry is HELD once FROZEN has been left. -/
theorem release {j : Jrn} (h : EntriesBounded st j.entries) (st' : FreezeState) : EntriesBounded st' j.release.entries where
  drains := (h.map (fun e => if e.st = .held then { e with st := .pending } else e)
    (fun e => by split <;> simp) (fun e => by split <;> simp)).drains
  held e he hs := by
    obtain ⟨d, -, rfl⟩ := List.mem_map.1 he
    split at hs
    · cases hs
    · exact absurd hs ‹_›

/-- R48, R50: an entry is issued while fewer than 8 are. -/
theorem issue {j : Jrn} (h : EntriesBounded st j.entries) (hn : (j.entries.map JEntry.block).Nodup)
    (hlt : j.issuedCount < 8) {e : JEntry} (he : e ∈ j.entries) :
    EntriesBounded st (j.update e.block JEntry.issue).entries := by
  obtain ⟨before, after, hj, ho⟩ := exists_entry hn he
  have hlt : j.entries.countP (fun e => decide (e.st = .issued)) < 8 := hlt
  have hheld := h.held
  rw [Jrn.update_entries hj ho]
  rw [hj] at hlt hheld
  constructor
  case drains =>
    simp only [List.countP_append, List.countP_cons] at hlt ⊢
    split <;> omega
  case held =>
    intro x hx hs
    rcases List.mem_append.1 hx with hx | hx
    · exact hheld x (List.mem_append_left _ hx) hs
    · rcases List.mem_cons.1 hx with rfl | hx
      · cases hs
      · exact hheld x (List.mem_append_right _ (List.mem_cons_of_mem _ hx)) hs

end EntriesBounded

abbrev State.EntriesBounded (s : State) : Prop := Machine.EntriesBounded s.frz.st s.jrn.entries

theorem State.entriesBounded_flowClosed : FlowClosed State.EntriesBounded where
  same e h := by
    unfold State.EntriesBounded
    rw [e.st, e.entries]
    exact h
  reset := .nil _
  change _ f hf h := h.map f (fun e he => by rwa [(hf e).2] at he) (fun e he => by rwa [(hf e).2] at he)
  hold s e hf he h := by
    unfold State.EntriesBounded at h ⊢
    simp only [hf] at h ⊢
    exact h.hold he
  freeze _ h := ⟨h.drains, fun _ _ _ => rfl⟩
  leaveFrozen _ h := h.release _
  idle s hn _ := by
    unfold State.EntriesBounded
    simp only [hn]
    exact .nil _
  send s h := by
    unfold State.EntriesBounded
    rw [State.sendToMemory_jrn, State.sendToMemory_frz]
    exact h

theorem State.EntriesBounded.grantTo {s : State} (h : s.EntriesBounded) (hn : (s.jrn.entries.map JEntry.block).Nodup)
    {r : Requester} (hw : s.hasWork r = true) : (s.grantTo r).EntriesBounded := by
  unfold State.grantTo
  split
  · split
    · exact h
    · exact h
  · split
    · rename_i e he
      exact h.issue hn (of_decide_eq_true (Bool.and_eq_true_iff.1 hw).2) (List.mem_of_find?_eq_some he)
    · exact h
  · obtain ⟨reads, pos, slots, e⟩ := s.copierIssue_eq
    rw [e]
    exact h

/-- An entry becomes PENDING. -/
theorem State.EntriesBounded.update {s : State} (h : s.EntriesBounded) (b : Addr) {f : JEntry → JEntry}
    (hf : ∀ e, (f e).st = .pending) : State.EntriesBounded { s with jrn := s.jrn.update b f } :=
  h.map (fun e => if e.block = b then f e else e) (fun e => by split <;> simp [hf]) (fun e => by split <;> simp [hf])

theorem State.EntriesBounded.drainDone {s : State} (hz : s.frz.StallSound) (h : s.EntriesBounded) (e : JEntry) (ok : Bool) :
    (s.drainDone e ok).EntriesBounded := by
  have gone : Machine.EntriesBounded s.frz.st (s.jrn.remove e.block).entries := h.filter _
  unfold State.drainDone
  split
  · split
    · exact h.update _ fun _ => rfl
    · exact State.entriesBounded_flowClosed.endDrain _ hz gone
  · split
    · exact h.update _ fun _ => rfl
    · exact State.entriesBounded_flowClosed.endDrain _ hz gone

theorem State.EntriesBounded.handOver {s : State} (hz : s.frz.StallSound) (h : s.EntriesBounded) (e : MemEntry) (ok : Bool)
    (data : Block) : (s.handOver e ok data).EntriesBounded := by
  unfold State.handOver
  split
  · unfold State.EntriesBounded
    rw [State.liveReadDone_frz, State.liveReadDone_jrn]
    exact h
  · unfold State.EntriesBounded
    rw [(State.liveWriteDone_eq _ _ _).1, State.liveWriteDone_jrn]
    exact h
  · split
    · exact State.EntriesBounded.drainDone hz h _ ok
    · exact h
  · exact State.entriesBounded_flowClosed.copierDone s ok data hz h

theorem State.entriesBounded_eventClosed :
    EventClosed (fun s => s.configKept ∧ s.journalKept) fun s => s.SlotKept ∧ s.EntriesBounded :=
  State.entriesBounded_flowClosed.eventClosed (fun _ _ _ _ h => h)
    (fun s hg hq h => by
      refine State.EntriesBounded.grantTo (State.entriesBounded_flowClosed.arbitrate s _ _ h) ?_ ?_
      · exact hq.2.1
      · exact State.hasWork_seek hq.1 hg)
    (fun s e rest ok data _ _ _ hk h => by
      refine State.EntriesBounded.handOver ?_ (State.entriesBounded_flowClosed.send _ ?_) e ok data
      · rw [State.sendToMemory_frz]
        exact hk.stall
      · exact h)

end Sys2Proof.Machine


/-! ## Capacities: what waits, and what has been sent -/

namespace Sys2Proof.Machine

/-! ### The rows that take a READ or serve the memory port -/

theorem isMemoryRow_cases {i : Instr} (h : isMemoryRow i = true) :
    i = .takeRead ∨ i = .grant ∨ ∃ ok data, i = .completion ok data := by
  cases i <;> cases h
  case takeRead => exact .inl rfl
  case grant => exact .inr (.inl rfl)
  case completion ok data => exact .inr (.inr ⟨ok, data, rfl⟩)

theorem exec_takeRead_cases {s t : State} (he : exec .takeRead s = .next t) : t = s ∨ ∃ r, t = s.examineRead r := by
  cases hl : s.sp.rlane with
  | nil => exact .inl (Host.Outcome.next.inj (he.symm.trans (exec_takeRead_nil hl)))
  | cons r rest => exact .inr ⟨r, Host.Outcome.next.inj (he.symm.trans (exec_takeRead_cons hl))⟩

theorem exec_grant_cases {s t : State} (he : exec .grant s = .next t) :
    t = s ∨ s.grantPossible = true ∧ t = s.grantOne := by
  have ht : t = if s.grantPossible then s.grantOne else s := (Host.Outcome.next.inj he).symm
  split at ht
  · exact .inr ⟨‹_›, ht⟩
  · exact .inl ht

theorem exec_completion_cases {s t : State} {ok : Bool} {data : Block} (he : exec (.completion ok data) s = .next t) :
    t = s.raise .portProtocol ∨ ∃ e rest, s.mp.queue = e :: rest ∧ e.issued = true ∧
      t = (State.sendToMemory { s with mp := s.mp.retire rest }).handOver e ok data := by
  replace he : execCompletion ok data s = .next t := he
  unfold execCompletion at he
  have ht := (Host.Outcome.next.inj he).symm
  split at ht
  · rename_i e rest hq
    split at ht
    · exact .inr ⟨e, rest, hq, ‹_›, ht⟩
    · exact .inl ht
  · exact .inl ht

theorem State.examineRead_untouched (s : State) (r : ReadReq) :
    (s.examineRead r).frz = s.frz ∧ (s.examineRead r).lnk = s.lnk ∧ (s.examineRead r).mp = s.mp := by
  unfold State.examineRead
  repeat' split
  all_goals exact ⟨rfl, rfl, rfl⟩

theorem exec_of_step {s t : State} (he : step s = .next t) :
    t = s ∨ ∃ i cs, exec i { s with pending := cs } = .next t := by
  unfold step at he
  split at he
  · exact .inl (Host.Outcome.next.inj he).symm
  · exact .inr ⟨_, _, he⟩

/-! ### Lists -/

theorem State.ListsBounded.examineRead {s : State} (h : s.ListsBounded)
    (hc : s.sp.writes.countP WriteRec.claimed = keptForStall s.frz.stall) (r : ReadReq) :
    (s.examineRead r).ListsBounded := by
  unfold State.examineRead
  split
  · exact h
  split
  · exact h
  split
  · exact h
  split
  · exact h.addRead hc r (s.capture r) ‹_›
  · exact h

/-- With the claim of each stall, lists and live queue stay within their bounds. -/
theorem State.ListsBounded.exec {i : Instr} {s t : State} (hk : s.SlotKept) (h : s.ListsBounded)
    (hc : s.sp.writes.countP WriteRec.claimed = keptForStall s.frz.stall) (he : Machine.exec i s = .next t) :
    t.ListsBounded := by
  cases hm : isMemoryRow i with
  | false => exact (State.listsBounded_flowClosed.rowClosed.exec hm ⟨hk, h⟩ he).2
  | true =>
    obtain rfl | rfl | ⟨ok, data, rfl⟩ := isMemoryRow_cases hm
    · obtain rfl | ⟨r, rfl⟩ := exec_takeRead_cases he
      · exact h
      · exact h.examineRead hc r
    · obtain rfl | ⟨-, rfl⟩ := exec_grant_cases he
      · exact h
      · exact State.listsBounded_flowClosed.send _
          (State.ListsBounded.grantTo (State.listsBounded_flowClosed.arbitrate s _ _ h) _)
    · obtain rfl | ⟨e, rest, -, -, rfl⟩ := exec_completion_cases he
      · exact h
      · refine State.ListsBounded.handOver ?_ (State.listsBounded_flowClosed.send _ ?_) e ok data
        · rw [State.sendToMemory_frz]
          exact hk.stall
        · exact h

/-! ### No access waits while a credit is held (R140, log 31) -/

/-- `sent` of `State.CapacityKept`. -/
def Mp.Sent (m : Mp) : Prop := m.credits ≠ 0 → ∀ e ∈ m.queue, e.issued = true

theorem countP_waiting_issueOldest {q : List MemEntry} (h : (q.find? fun e => !e.issued).isSome) :
    (issueOldest q).countP (fun e => !e.issued) + 1 = q.countP fun e => !e.issued := by
  induction q with
  | nil => simp at h
  | cons e es ih =>
    cases he : e.issued with
    | true => simpa [issueOldest, he] using ih (by simpa [List.find?, he] using h)
    | false => simp [issueOldest, he]

/-- R140: sending leaves no access waiting beside a credit, when at most one waited or at most one credit was held. -/
theorem State.sent_sendToMemory {s : State}
    (h : s.mp.credits ≤ 1 ∨ s.mp.queue.countP (fun e => !e.issued) ≤ 1) : s.sendToMemory.mp.Sent := by
  unfold State.sendToMemory
  split
  · rename_i e he
    have hw := countP_waiting_issueOldest (q := s.mp.queue) (by rw [he]; rfl)
    split
    · intro hc
      have hc : s.mp.credits - 1 ≠ 0 := hc
      have hnone : (issueOldest s.mp.queue).countP (fun e => !e.issued) = 0 := by omega
      exact fun e hm => by simpa using List.countP_eq_zero.1 hnone e hm
    · rename_i hn
      exact fun hc => absurd (Nat.pos_of_ne_zero hc) hn
  · rename_i hn
    exact fun _ e hm => by simpa using List.find?_eq_none.1 hn e hm

theorem Mp.Sent.waiting {m : Mp} (h : m.Sent) : m.credits = 0 ∨ m.queue.countP (fun e => !e.issued) = 0 := by
  by_cases hc : m.credits = 0
  · exact .inl hc
  · exact .inr (List.countP_eq_zero.2 fun e hm => by simp [h hc e hm])

theorem Mp.Sent.grantOne {s : State} (h : s.mp.Sent) : s.grantOne.mp.Sent := by
  obtain ⟨hq, hcr⟩ := Mp.seek_won_queue s.hasWork arbiterLooks s.mp
  unfold State.grantOne
  simp only
  refine State.sent_sendToMemory ?_
  rcases State.grantTo_mp { s with mp := (Mp.seek s.hasWork arbiterLooks s.mp).won }
    (Mp.seek s.hasWork arbiterLooks s.mp).pos with he | ⟨a, b, he⟩
  · rw [he, hq, hcr]
    rcases h.waiting with hw | hw <;> omega
  · rw [he]
    simp only [Mp.append, hq, hcr, List.countP_append]
    rcases h.waiting with hw | hw
    · exact .inl (by omega)
    · exact .inr (by rw [hw]; rfl)

theorem Mp.Sent.complete {s : State} (h : s.mp.Sent) {e : MemEntry} {rest : List MemEntry} (hq : s.mp.queue = e :: rest)
    (ok : Bool) (data : Block) :
    ((State.sendToMemory { s with mp := s.mp.retire rest }).handOver e ok data).mp.Sent := by
  rw [State.handOver_mp]
  refine State.sent_sendToMemory ?_
  rcases h.waiting with hw | hw
  · exact .inl (by show s.mp.credits + 1 ≤ 1; omega)
  · rw [hq] at hw
    exact .inr ((List.sublist_cons_self e rest).countP_le.trans (by omega))

theorem Mp.sent_rowClosed : RowClosed fun s => s.mp.Sent where
  same e h := by
    unfold Mp.Sent
    rw [e.queue, e.credits]
    exact h
  reset _ _ _ he := by cases he
  portReset _ h := h
  writeCmd s code h :=
    have c : CommandClosed fun s => s.mp.Sent :=
      { mgmt := fun _ _ _ _ _ _ h => h
        alert := fun _ _ h => h
        stats := fun _ _ h => h
        resetting := fun _ h => h
        baseline := fun _ h => h
        slot := fun _ _ h => h
        staging := fun _ _ _ h => h
        table := fun _ _ _ _ _ _ h => h
        freezePoint := fun s k _ h => (s.undisturbed_freezePoint .mgmt k).mp.symm ▸ h
        cancelSlot := fun s h => s.undisturbed_cancelSlot.mp.symm ▸ h
        breakEpoch := fun s b h => (s.undisturbed_breakEpoch b).mp.symm ▸ h }
    c.writeCmd s code h
  breakEpoch s b h := (s.undisturbed_breakEpoch b).mp.symm ▸ h
  stallExpire s h := s.undisturbed_stallExpire.mp.symm ▸ h
  commit s h := (State.undisturbed_evaluate _).mp.symm ▸ h
  lockGained s h := (State.undisturbed_evaluate _).mp.symm ▸ h
  lose _ h := h
  freeze s src k _ h := (s.undisturbed_freezePoint src k).mp.symm ▸ h
  arriveRead _ _ h := h
  arriveWrite _ _ h := h
  popWrite _ _ h := h
  straight _ _ _ _ h := h
  merge _ _ _ h := h
  allocate _ _ _ _ _ h := h
  exhaust s w _ _ _ _ h := (s.undisturbed_exhaust w).mp.symm ▸ h
  lineWaits _ _ _ _ _ h := h
  markerWaits _ _ _ _ _ _ _ _ _ h := h

theorem Mp.Sent.exec {i : Instr} {s t : State} (h : s.mp.Sent) (he : Machine.exec i s = .next t) : t.mp.Sent := by
  cases hm : isMemoryRow i with
  | false => exact Mp.sent_rowClosed.exec hm h he
  | true =>
    obtain rfl | rfl | ⟨ok, data, rfl⟩ := isMemoryRow_cases hm
    · obtain rfl | ⟨r, rfl⟩ := exec_takeRead_cases he
      · exact h
      · rw [(s.examineRead_untouched r).2.2]
        exact h
    · obtain rfl | ⟨-, rfl⟩ := exec_grant_cases he
      · exact h
      · exact h.grantOne
    · obtain rfl | ⟨e, rest, hq, -, rfl⟩ := exec_completion_cases he
      · exact h
      · exact h.complete hq ok data

end Sys2Proof.Machine


/-! ## Capacities: where a request may wait (O10) -/

namespace Sys2Proof.Machine

/-- R8, R10, R11: no request waits in FROZEN. -/
abbrev Frz.NoneInFrozen (z : Frz) : Prop := z.st = .frozen → z.slot = none

/-- `waits` and `frozen` of `State.CapacityKept`. -/
structure State.WaitsSoundly (s : State) : Prop where
  waits : s.frz.slot ≠ none → s.canFreeze = false
  frozen : s.frz.NoneInFrozen

theorem State.canFreeze_congr {s t : State} (hst : t.frz.st = s.frz.st) (ha : t.frz.active = s.frz.active)
    (hup : t.lnk.up = s.lnk.up) : t.canFreeze = s.canFreeze := by
  unfold State.canFreeze
  rw [hst, ha, hup]

theorem Frz.NoneInFrozen.endExhaustion {s : State} (h : s.frz.NoneInFrozen) : s.endExhaustion.frz.NoneInFrozen := by
  rw [s.endExhaustion_frz]
  split
  · exact h
  · exact h

theorem State.takeEffect_slot (s : State) (q : FreezeReq) : (s.takeEffect q).frz.slot = none := by
  unfold State.takeEffect
  split
  · exact State.freezePoint_slot _ _ _
  · exact State.freezePoint_slot _ _ _
  · rw [State.freezePoint_slot, State.endStraight_frz]
    rfl

theorem State.endExhaustion_st (s : State) : s.endExhaustion.frz.st = s.frz.st := by
  rw [s.endExhaustion_frz]
  split <;> rfl

/-- R1: FROZEN has been left. -/
theorem State.leaveFrozen_st (s : State) : s.leaveFrozen.frz.st ≠ .frozen := by
  rw [State.leaveFrozen_frz]
  show (if s.jrn.entries.isEmpty then FreezeState.idle else .draining) ≠ .frozen
  split <;> simp

namespace State.WaitsSoundly

theorem of_empty {s : State} (h : s.frz.slot = none) : s.WaitsSoundly := ⟨fun hn => absurd h hn, fun _ => h⟩

theorem congr {s t : State} (h : s.WaitsSoundly) (hst : t.frz.st = s.frz.st := by rfl)
    (hslot : t.frz.slot = s.frz.slot := by rfl) (ha : t.frz.active = s.frz.active := by rfl)
    (hup : t.lnk.up = s.lnk.up := by rfl) : t.WaitsSoundly where
  waits := by rw [hslot, State.canFreeze_congr hst ha hup]; exact h.waits
  frozen := by rw [Frz.NoneInFrozen, hst, hslot]; exact h.frozen

/-- Where a freeze can take effect the slot is empty, and stays so. -/
theorem freezePoint {s : State} (h : s.WaitsSoundly) (hc : s.canFreeze = true) (src : Source) (k : Kind) :
    (s.freezePoint src k).WaitsSoundly := by
  refine of_empty ?_
  rw [s.freezePoint_slot]
  by_contra hn
  exact absurd hc (by simp [h.waits hn])

/-- R4: after the evaluation no request waits where a freeze can take effect. -/
theorem evaluate {s : State} (h : s.frz.NoneInFrozen) : s.evaluate.WaitsSoundly := by
  cases hq : s.frz.slot with
  | none =>
    rw [State.evaluate_empty hq]
    exact of_empty hq
  | some q =>
    cases hc : s.canFreeze with
    | false =>
      rw [State.evaluate_impossible hc]
      exact ⟨fun _ => hc, h⟩
    | true =>
      rw [State.evaluate_possible hq hc]
      exact of_empty (s.takeEffect_slot q)

theorem breakEpoch {s : State} (h : s.WaitsSoundly) (c : BreakCause) : (s.breakEpoch c).WaitsSoundly := by
  unfold State.breakEpoch State.breakNow
  split
  · refine evaluate ?_
    split
    · exact Frz.NoneInFrozen.endExhaustion (s := (s.breakCore c).leaveFrozen) fun hf => absurd hf (State.leaveFrozen_st _)
    · exact h.frozen
  · exact h

theorem stallExpire {s : State} (h : s.WaitsSoundly) : s.stallExpire.WaitsSoundly := by
  unfold State.stallExpire
  split
  · refine of_empty ?_
    show (s.emptySlot.endStallWith State.takePlain).frz.slot = none
    rw [State.endPlain_frz]
    rfl
  · exact h.breakEpoch _
  · exact h

theorem endDrain {s : State} (h : s.WaitsSoundly) : s.endDrain.WaitsSoundly := by
  unfold State.endDrain
  split
  · exact evaluate nofun
  · exact h

/-- R16: at capture complete the epoch stays active, so no freeze can take effect. -/
theorem captureComplete {s : State} (ha : s.frz.active = true) : s.captureComplete.WaitsSoundly := by
  obtain ⟨r, older, hh, -⟩ := s.frz.active_iff.1 ha
  have hactive : s.captureComplete.frz.active = true := by
    rw [State.captureComplete_eq hh, State.endExhaustion_frz]
    split <;> rfl
  have hst : s.captureComplete.frz.st ≠ .frozen := by
    rw [State.captureComplete_eq hh, State.endExhaustion_st]
    show (if s.jrn.entries = [] then FreezeState.idle else .draining) ≠ .frozen
    split <;> simp
  exact ⟨fun _ => (State.canFreeze_eq_false _).2 fun hc => by simp [hactive] at hc, fun hf => absurd hf hst⟩

/-! ### Completions -/

theorem drainDone {s : State} (h : s.WaitsSoundly) (e : JEntry) (ok : Bool) : (s.drainDone e ok).WaitsSoundly := by
  unfold State.drainDone
  split
  · split
    · exact h.congr
    · exact endDrain h.congr
  · split
    · exact h.congr
    · exact endDrain h.congr

/-- R83: a read fills a slot only during capture. -/
theorem copierDone {s : State} (hp : s.PhasesKept) (h : s.WaitsSoundly) (ok : Bool) (data : Block) :
    (s.copierDone ok data).WaitsSoundly := by
  unfold State.copierDone State.copierReadDone
  simp only
  split
  · exact h.congr
  split
  · split
    · rename_i q hq
      have hq' : q.isFilling = true := List.find?_some hq
      have hc : s.frz.capturing = true := hp.filling q (List.mem_of_find?_eq_some hq) (of_decide_eq_true hq')
      have ha := s.frz.active_update
        (fun r => { r with granules := r.granules +
          if (decide ((q.receive data).st = .ready) && q.frame.lastChunk) = true then 1 else 0 }) fun _ => rfl
      split
      · exact captureComplete (ha.trans (Frz.active_of_capturing hc))
      · exact h.congr (ha := ha)
    · exact h.congr
  · exact breakEpoch h.congr _

theorem handOver {s : State} (hp : s.PhasesKept) (h : s.WaitsSoundly) (e : MemEntry) (ok : Bool) (data : Block) :
    (s.handOver e ok data).WaitsSoundly := by
  unfold State.handOver
  split
  · unfold State.liveReadDone
    split
    · simp only
      split
      · exact h.congr
      · exact h.congr
    · exact h
  · unfold State.liveWriteDone
    split
    · simp only
      split
      · exact h.congr
      · exact h.congr
    · exact h
  · split
    · exact h.drainDone _ ok
    · exact h
  · exact h.copierDone hp ok data

theorem grantTo {s : State} (h : s.WaitsSoundly) (r : Requester) : (s.grantTo r).WaitsSoundly := by
  unfold State.grantTo
  split
  · split
    · exact h.congr
    · exact h
  · split
    · exact h.congr
    · exact h
  · obtain ⟨reads, pos, slots, e⟩ := s.copierIssue_eq
    rw [e]
    exact h.congr

theorem send {s : State} (h : s.WaitsSoundly) : s.sendToMemory.WaitsSoundly :=
  h.congr (by rw [s.sendToMemory_frz]) (by rw [s.sendToMemory_frz]) (by rw [s.sendToMemory_frz])
    (by rw [s.sendToMemory_lnk])

/-! ### Commands and the other rows -/

theorem commandKept : CommandKept State.WaitsSoundly where
  mgmt _ _ h := h.congr
  alert _ _ h := h.congr
  stats _ _ h := h.congr
  resetting _ h := h.congr
  baseline _ h := h.congr
  windows _ _ h := h.congr
  maps _ _ h := h.congr
  freezePoint _ k hc h := h.freezePoint hc .mgmt k
  waits _ _ hc hf _ _ := ⟨fun _ => hc, fun h => absurd h hf⟩
  takeOver _ _ _ _ := of_empty rfl
  cancelSlot s _ := of_empty s.cancelSlot_slot
  breakEpoch _ c h := h.breakEpoch c

theorem writeCmd {s : State} (h : s.WaitsSoundly) (code : Nat) : (s.writeCmd code).WaitsSoundly := by
  unfold State.writeCmd
  split
  · exact commandKept.takeCommand s code h
  split
  · exact commandKept.takeCommand _ code (of_empty rfl)
  · exact h.congr

theorem rowClosed : RowClosed State.WaitsSoundly where
  same e h := h.congr e.st e.slot e.active e.up
  reset _ := of_empty rfl
  portReset s h := by
    have hslot : s.frz.portReset.slot = none ∨ s.frz.portReset.slot = s.frz.slot := by
      unfold Frz.portReset
      cases hq : s.frz.slot with
      | none => exact .inl rfl
      | some q => by_cases hm : q.source = .marker <;> simp [hm]
    rcases hslot with hn | hn
    · exact of_empty hn
    · exact h.congr (hslot := hn)
  writeCmd _ code h := h.writeCmd code
  breakEpoch _ c h := h.breakEpoch c
  stallExpire _ h := h.stallExpire
  commit s h := by
    unfold State.commitEpoch
    exact evaluate h.frozen
  lockGained _ h := evaluate h.frozen
  lose s h :=
    { waits := fun _ => (State.canFreeze_eq_false _).2 fun hc => Bool.false_ne_true hc.2.2
      frozen := h.frozen }
  freeze _ src k hc h := h.freezePoint hc src k
  arriveRead _ _ h := h.congr
  arriveWrite _ _ h := h.congr
  popWrite _ _ h := h.congr
  straight _ _ _ _ h := h.congr
  merge _ _ _ h := h.congr
  allocate _ _ _ _ _ h := h.congr
  exhaust s w _ _ _ _ h := by
    unfold State.exhaust
    split
    · exact (h.breakEpoch _).congr
    · exact h.congr
  lineWaits _ _ hc hf _ _ := ⟨fun _ => hc, fun h => absurd h hf⟩
  markerWaits _ _ _ hc hf _ _ _ _ _ := ⟨fun _ => hc, fun h => absurd h hf⟩

theorem exec {i : Instr} {s t : State} (hp : s.PhasesKept) (h : s.WaitsSoundly) (he : Machine.exec i s = .next t) :
    t.WaitsSoundly := by
  cases hm : isMemoryRow i with
  | false => exact rowClosed.exec hm h he
  | true =>
    obtain rfl | rfl | ⟨ok, data, rfl⟩ := isMemoryRow_cases hm
    · obtain rfl | ⟨r, rfl⟩ := exec_takeRead_cases he
      · exact h
      · obtain ⟨hz, hl, -⟩ := s.examineRead_untouched r
        exact h.congr (by rw [hz]) (by rw [hz]) (by rw [hz]) (by rw [hl])
    · obtain rfl | ⟨-, rfl⟩ := exec_grant_cases he
      · exact h
      · exact send (grantTo h.congr _)
    · obtain rfl | ⟨e, rest, -, -, rfl⟩ := exec_completion_cases he
      · exact h.congr
      · exact handOver (State.PhasesKept.send hp.congr) (send h.congr) e ok data

end State.WaitsSoundly

/-! ### Every step keeps the capacities -/

theorem State.configJournalKept_stepClosed : StepClosed fun s => s.configKept ∧ s.journalKept :=
  (State.journalKept_ledgerClosed.eventClosed _).stepClosed State.configKept_stepClosed

/-- Settles O10: memory queue and entry states by induction over what a step is made of; lists, the accesses sent and the
requests that wait row by row, since they hold only where a row ends. -/
theorem everyStepKeepsTheCapacities : Obligations.EveryStepKeepsTheCapacities := by
  unfold Obligations.EveryStepKeepsTheCapacities
  intro s t hc hj hp hs hk he
  have slot : s.SlotKept := ⟨⟨hs.marker, hs.exhaustion⟩, hs.freezeWaits⟩
  have lists : s.ListsBounded := State.listsBounded_of_kept hs hk
  have waits : s.WaitsSoundly := ⟨fun hn => s.canFreeze_eq_false.2 (hk.waits hn), hk.frozen⟩
  obtain ⟨-, -, queue⟩ := ((State.queueBounded_eventClosed _).stepClosed .always).step s t
    ⟨trivial, slot, hk.memory, hk.issuedFirst⟩ he
  obtain ⟨-, -, entries⟩ := (State.entriesBounded_eventClosed.stepClosed State.configJournalKept_stepClosed).step s t
    ⟨⟨hc, hj⟩, slot, hk.drains, hk.held⟩ he
  obtain rfl | ⟨i, cs, hi⟩ := exec_of_step he
  · exact hk
  have slot' : State.SlotKept { s with pending := cs } := slot.congr
  have lists' : t.ListsBounded := State.ListsBounded.exec slot' lists hs.claims hi
  have sent' : t.mp.Sent := Mp.Sent.exec (s := { s with pending := cs }) hk.sent hi
  have waits' : t.WaitsSoundly := State.WaitsSoundly.exec (s := { s with pending := cs }) hp.congr waits.congr hi
  obtain ⟨reads, writes, live⟩ := lists'.bounds
  exact
    { reads := reads, writes := writes, live := live, memory := queue.length, issuedFirst := queue.issuedFirst,
      sent := sent', drains := entries.drains, held := entries.held,
      waits := fun hn => t.canFreeze_eq_false.1 (waits'.waits hn), frozen := waits'.frozen }

end Sys2Proof.Machine


/-! ## The memory port: sends, completions of LIVE accesses, and grants (R139 to R150) -/

namespace Sys2Proof.Machine

/-! ### The send to the memory controller (R139, R140) -/

/-- R140: with a credit the oldest WAITING entry is sent. -/
theorem State.sendToMemory_sends {s : State} {front back : List MemEntry} {e : MemEntry}
    (hq : s.mp.queue = front ++ e :: back) (hf : ∀ f ∈ front, f.issued = true) (he : e.issued = false)
    (hc : s.mp.credits ≠ 0) :
    s.sendToMemory =
      { s with
        mp := { s.mp with queue := front ++ { e with issued := true } :: back, credits := s.mp.credits - 1 }
        out := s.out ++ [e.output] } := by
  obtain ⟨issue, find⟩ := issueOldest_append front back e hf he
  simp only [State.sendToMemory, hq, issue, find, Nat.pos_of_ne_zero hc, if_true]

/-- R140: without a credit nothing is sent. -/
theorem State.sendToMemory_no_credit {s : State} (hc : s.mp.credits = 0) : s.sendToMemory = s := by
  unfold State.sendToMemory
  split
  · exact if_neg (by omega)
  · rfl

/-- R140: without a WAITING entry nothing is sent. -/
theorem State.sendToMemory_none_waiting {s : State} (h : ∀ e ∈ s.mp.queue, e.issued = true) : s.sendToMemory = s := by
  have hn : s.mp.queue.find? (fun e => !e.issued) = none := List.find?_eq_none.2 (by simpa using h)
  simp only [State.sendToMemory, hn]

/-- Settles O35, by the credits and the place of the oldest WAITING entry. -/
theorem oldestWaitingEntryIsSent : Obligations.OldestWaitingEntryIsSent := by
  unfold Obligations.OldestWaitingEntryIsSent
  refine ⟨fun s front back e hq hf he => ⟨State.sendToMemory_no_credit, fun hc => ?_⟩,
    fun s => State.sendToMemory_none_waiting⟩
  rw [State.sendToMemory_sends hq hf he hc]
  obtain ⟨access, block, issued⟩ := e
  cases access <;> rfl

/-! ### Completions of LIVE accesses (R131, R136, R141, R147 to R150) -/

@[simp] theorem State.sendToMemory_alert (s : State) : s.sendToMemory.alert = s.alert := by
  obtain ⟨q, n, o, h, -, -⟩ := s.sendToMemory_eq
  rw [h]

@[simp] theorem State.sendToMemory_stats (s : State) : s.sendToMemory.stats = s.stats := by
  obtain ⟨q, n, o, h, -, -⟩ := s.sendToMemory_eq
  rw [h]

/-- R141: with no ISSUED entry at the head a completion is spurious. -/
theorem exec_completion_spurious {s : State} (h : s.mp.queue = [] ∨ ∃ e rest, s.mp.queue = e :: rest ∧ e.issued = false)
    (ok : Bool) (data : Block) : exec (.completion ok data) s = .next (s.raise .portProtocol) := by
  show execCompletion ok data s = _
  obtain hq | ⟨e, rest, hq, hi⟩ := h
  · simp only [execCompletion, hq]
  · simp only [execCompletion, hq, hi, Bool.false_eq_true, if_false]

/-- R141, R147: the completion of an ISSUED head is handed over once its credit is back and the next entry may be sent. -/
theorem exec_completion_head {s : State} {e : MemEntry} {rest : List MemEntry} (hq : s.mp.queue = e :: rest)
    (hi : e.issued = true) (ok : Bool) (data : Block) :
    exec (.completion ok data) s =
      .next ((State.sendToMemory { s with mp := s.mp.retire rest }).handOver e ok data) := by
  show execCompletion ok data s = _
  simp only [execCompletion, hq, hi, if_true]

theorem State.handOver_liveRead {e : MemEntry} {id : Nat} (h : e.access = .liveRead id) (s : State) (ok : Bool)
    (data : Block) : s.handOver e ok data = s.liveReadDone id ok data := by simp only [State.handOver, h]

theorem State.handOver_liveWrite {e : MemEntry} {id : Nat} {mask : ByteMask} {wd : Block}
    (h : e.access = .liveWrite id mask wd) (s : State) (ok : Bool) (data : Block) :
    s.handOver e ok data = s.liveWriteDone id ok := by simp only [State.handOver, h]

/-- R131, R136, R148, R150: what the completion of a LIVE read changes, with its record on the list. -/
theorem State.liveReadDone_found {s : State} {id : Nat} {r : ReadRec}
    (h : s.sp.reads.find? (fun q => decide (q.id = id)) = some r) (ok : Bool) (data : Block) :
    s.liveReadDone id ok data =
      { s with
        sp := { s.sp with reads := s.sp.reads.filter fun q => decide (q.id ≠ id) }
        alert := if ok then s.alert else s.alert.raise .memError
        stats := if ok then s.stats else s.stats.count .memReadErrors
        out := s.out ++ if r.silent then [] else
          [if ok then .readDone r.initiator r.tag .ok (r.response data)
            else .readDone r.initiator r.tag .memError []] } := by
  simp only [State.liveReadDone, h, unlessSilent]
  cases ok <;> rfl

/-- R131, R136, R149, R150: what the completion of a LIVE write changes, with its record on the list. -/
theorem State.liveWriteDone_found {s : State} {id : Nat} {r : WriteRec}
    (h : s.sp.writes.find? (fun q => decide (q.id = id)) = some r) (ok : Bool) :
    s.liveWriteDone id ok =
      { s with
        sp := { s.sp with writes := s.sp.writes.filter fun q => decide (q.id ≠ id) }
        alert := if ok then s.alert else s.alert.raise .memError
        stats := if ok then s.stats else s.stats.count .memWriteErrors
        out := s.out ++ if r.silent then [] else
          [.writeDone r.initiator r.tag (if ok then .ok else .memError)] } := by
  simp only [State.liveWriteDone, h, unlessSilent]
  cases ok <;> rfl

/-- Settles O36, by the head of the queue and the access it holds. -/
theorem liveCompletions : Obligations.LiveCompletions := by
  unfold Obligations.LiveCompletions
  intro s ok data
  refine ⟨fun h => exec_completion_spurious h ok data, ?_⟩
  intro e rest hq hi u
  have done : exec (.completion ok data) s = .next (u.handOver e ok data) := exec_completion_head hq hi ok data
  have hsp : u.sp = s.sp := State.sendToMemory_sp _
  have halert : u.alert = s.alert := State.sendToMemory_alert _
  have hstats : u.stats = s.stats := State.sendToMemory_stats _
  refine ⟨fun id r ha hr => ?_, fun id mask wd r ha hr => ?_⟩
  · rw [done, State.handOver_liveRead ha, State.liveReadDone_found (by rwa [hsp]), hsp, halert, hstats]
  · rw [done, State.handOver_liveWrite ha, State.liveWriteDone_found (by rwa [hsp]), hsp, halert, hstats]

/-! ### The arbiter (R143, R144, R146) -/

theorem State.grantPossible_iff (s : State) :
    s.grantPossible = true ↔
      s.mp.queue.length < 32 ∧ (s.hasWork .live = true ∨ s.hasWork .drain = true ∨ s.hasWork .copier = true) := by
  simp only [State.grantPossible, Mp.slotFree, Bool.and_eq_true, Bool.or_eq_true, decide_eq_true_eq, or_assoc]
  rfl

theorem exec_grant_possible {s : State} (h : s.grantPossible = true) : exec .grant s = .next s.grantOne :=
  congrArg Host.Outcome.next (if_pos h)

theorem exec_grant_impossible {s : State} (h : ¬s.grantPossible = true) : exec .grant s = .next s :=
  congrArg Host.Outcome.next (if_neg h)

/-- Which requester has work is nothing the memory port decides. -/
theorem State.hasWork_mp (s : State) (m : Mp) : State.hasWork { s with mp := m } = s.hasWork := by
  funext r
  cases r <;> rfl

theorem Mp.seek_here {work : Requester → Bool} {m : Mp} (hw : work m.pos = true) (hg : m.grants < m.cur.of m.pos) (k : Nat) :
    Mp.seek work k m = m := by
  cases k with
  | zero => rfl
  | succ k => exact if_pos (by simp [hw, hg])

theorem Mp.seek_move {work : Requester → Bool} {m : Mp} (h : ¬(work m.pos = true ∧ m.grants < m.cur.of m.pos)) (k : Nat) :
    Mp.seek work (k + 1) m = Mp.seek work k m.move :=
  if_neg (by simpa using h)

/-- R144: a search that has ended at a winner does not go on with more looks. -/
theorem Mp.seek_succ {work : Requester → Bool} (k : Nat) {m : Mp} (hw : work (Mp.seek work k m).pos = true)
    (hg : (Mp.seek work k m).grants < (Mp.seek work k m).cur.of (Mp.seek work k m).pos) :
    Mp.seek work (k + 1) m = Mp.seek work k m := by
  induction k generalizing m with
  | zero => exact Mp.seek_here hw hg 1
  | succ k ih =>
    by_cases h : work m.pos = true ∧ m.grants < m.cur.of m.pos
    · rw [Mp.seek_here h.1 h.2, Mp.seek_here h.1 h.2]
    · rw [Mp.seek_move h] at hw hg ⊢
      rw [ih hw hg, Mp.seek_move h]

/-- R144: where the arbiter has to move on, its search is that of the moved arbiter. -/
theorem Mp.seek_eq_move {work : Requester → Bool} {m : Mp} (hcur : m.cur.positive) (hcfg : m.cfg.positive)
    (hw : work .live = true ∨ work .drain = true ∨ work .copier = true)
    (h : ¬(work m.pos = true ∧ m.grants < m.cur.of m.pos)) :
    Mp.seek work arbiterLooks m = Mp.seek work arbiterLooks m.move := by
  obtain ⟨hl, hd, hp⟩ := hcur
  obtain ⟨hl', hd', hp'⟩ := hcfg
  have moved : Mp.seek work arbiterLooks m = Mp.seek work 5 m.move := Mp.seek_move h 5
  obtain ⟨hpos, hshare⟩ := Mp.seek_finds work m (Weights.of_pos _ hl hd hp) (Weights.of_pos _ hl' hd' hp')
    (by simpa [or_assoc] using hw)
  rw [moved] at hpos hshare ⊢
  exact (Mp.seek_succ 5 hpos hshare).symm

/-- R144: an arbiter that has to move on grants as the moved arbiter does. -/
theorem exec_grant_move {s : State} (hg : s.grantPossible = true) (hcur : s.mp.cur.positive) (hcfg : s.mp.cfg.positive)
    (h : ¬(s.hasWork s.mp.pos = true ∧ s.mp.grants < s.mp.cur.of s.mp.pos)) :
    exec .grant s = exec .grant { s with mp := s.mp.move } := by
  obtain ⟨hslot, hwork⟩ := s.grantPossible_iff.1 hg
  have hg' : State.grantPossible { s with mp := s.mp.move } = true :=
    (State.grantPossible_iff _).2 ⟨hslot, by rwa [State.hasWork_mp]⟩
  rw [exec_grant_possible hg, exec_grant_possible hg', State.grantOne, Mp.seek_eq_move hcur hcfg hwork h,
    State.grantOne, s.hasWork_mp s.mp.move]

/-- R144: the winner's count rises, or the arbiter moves on, and the queue gets its access. -/
theorem Mp.won_append (m : Mp) (a : MemAccess) (b : Addr) :
    m.won.append a b =
      { (if m.grants + 1 < m.cur.of m.pos then { m with grants := m.grants + 1 } else m.move) with
        queue := m.queue ++ [{ access := a, block := b, issued := false }] } := by
  unfold Mp.append Mp.won
  split <;> rfl

/-! ### When a requester has work, and what it presents (R48 to R50, R78 to R80, R143) -/

theorem State.hasWork_live (s : State) : s.hasWork .live = true ↔ s.sp.live ≠ [] := by simp [State.hasWork]

/-- R48, R49. -/
theorem JEntry.eligible_iff (live : List LiveEntry) (e : JEntry) :
    e.eligible live = true ↔ e.st = .pending ∧ ∀ q ∈ live, q.block ≠ e.block := by
  simp [JEntry.eligible, heldBack]

/-- R48: the eligible entry with none before it is presented. -/
theorem Jrn.oldestEligible_eq_some_iff (j : Jrn) (live : List LiveEntry) (e : JEntry) :
    j.oldestEligible live = some e ↔
      e.eligible live = true ∧ ∃ older younger, j.entries = older ++ e :: younger ∧
        ∀ f ∈ older, ¬f.eligible live = true := by
  simp [Jrn.oldestEligible, List.find?_eq_some_iff_append]

theorem State.hasWork_drain (s : State) :
    s.hasWork .drain = true ↔
      s.frz.st = .draining ∧ s.jrn.entries.countP (fun e => decide (e.st = .issued)) < 8 ∧
        ∃ e ∈ s.jrn.entries, e.eligible s.sp.live = true := by
  simp only [State.hasWork, Jrn.oldestEligible, Bool.and_eq_true, decide_eq_true_eq, List.find?_isSome, and_assoc]
  exact and_congr_right fun _ => and_comm

theorem Slot.unissued_iff (q : Slot) : q.unissued = true ↔ q.st = .filling ∧ q.issued < 8 := by simp [Slot.unissued]

theorem State.hasWork_copier (s : State) :
    s.hasWork .copier = true ↔
      s.cap.st = .copying ∧ s.cap.fence = 0 ∧
        ((∃ q ∈ s.lnk.slots, q.st = .filling ∧ q.issued < 8) ∨
          ((∃ w g c, s.cap.plan[s.cap.pos]? = some (.data w g c)) ∧ s.lnk.slots.length < 16)) := by
  simp only [State.hasWork, State.copierHasRead, Bool.and_eq_true, Bool.or_eq_true, decide_eq_true_eq, List.any_eq_true,
    Slot.unissued_iff, Lnk.slotFree, Cap.next, and_assoc]
  cases s.cap.plan[s.cap.pos]? with
  | none => simp
  | some p => simp [PlanFrame.isData_iff, Config.slotCount]

/-- R78. -/
theorem readBlock_of_window {table : List Window} {w : Nat} {d : Window} (h : table[w]? = some d) (g c k : Nat) :
    readBlock table w g c k = d.base + BitVec.ofNat 40 (4096 * g + 256 * c + 32 * k) := by
  rw [readBlock, windowAt, List.getD_eq_getElem?_getD, h, Option.getD_some]

/-- R78, R80: the reads of a slot go on from those issued. -/
theorem Slot.nextBlock_data {q : Slot} {ep : Word16} {n w c g : Nat} {p : List Byte} (h : q.frame = .data ep n w c g p)
    (table : List Window) : q.nextBlock table = readBlock table w g c q.issued := by simp only [Slot.nextBlock, h]

/-! ### Grants (R79, R144, R145) -/

section

/-! A slot is free, and the requester at the arbiter's position has work and share left. -/

variable {s : State} (hslot : s.mp.queue.length < 32) (hw : s.hasWork s.mp.pos = true)
  (hg : s.mp.grants < s.mp.cur.of s.mp.pos)
include hslot hw hg

/-- R144: the requester at the arbiter's position wins. -/
theorem exec_grant_here :
    exec .grant s = .next (State.sendToMemory (State.grantTo { s with mp := s.mp.won } s.mp.pos)) := by
  have some_work : s.hasWork .live = true ∨ s.hasWork .drain = true ∨ s.hasWork .copier = true := by
    cases hp : s.mp.pos <;> rw [hp] at hw <;> simp [hw]
  rw [exec_grant_possible (s.grantPossible_iff.2 ⟨hslot, some_work⟩), State.grantOne, Mp.seek_here hw hg]

/-- R145, R79: a grant to LIVE. -/
theorem exec_grant_live (hp : s.mp.pos = .live) {q : LiveEntry} {rest : List LiveEntry} (hq : s.sp.live = q :: rest) :
    exec .grant s = .next (State.sendToMemory
      { s with
        sp := { s.sp with live := rest }
        cap := { s.cap with fence := s.cap.fence - 1 }
        mp := s.mp.won.append q.access q.block }) := by
  rw [exec_grant_here hslot hw hg, hp]
  simp only [State.grantTo, hq]

/-- R145, R50: a grant to DRAIN. -/
theorem exec_grant_drain (hp : s.mp.pos = .drain) {e : JEntry} (he : s.jrn.oldestEligible s.sp.live = some e) :
    exec .grant s = .next (State.sendToMemory
      { s with
        jrn := s.jrn.update e.block JEntry.issue
        mp := s.mp.won.append (.drain e.mask e.data) e.block }) := by
  rw [exec_grant_here hslot hw hg, hp]
  simp only [State.grantTo, he]

/-- R145, R80: a grant to COPIER with a FILLING slot that has reads to issue. -/
theorem exec_grant_copier_filling (hp : s.mp.pos = .copier) {q : Slot}
    (hq : s.lnk.slots.find? Slot.unissued = some q) :
    exec .grant s = .next (State.sendToMemory
      { s with
        cap := { s.cap with reads := s.cap.reads + 1 }
        lnk := { s.lnk with slots := updateFirst Slot.unissued (fun q => { q with issued := q.issued + 1 }) s.lnk.slots }
        mp := s.mp.won.append .copier (q.nextBlock s.win.table) }) := by
  rw [exec_grant_here hslot hw hg, hp]
  simp only [State.grantTo, State.copierIssue, hq]

/-- R145, R80: a grant to COPIER that begins the DATA frame next in the plan. -/
theorem exec_grant_copier_begins (hp : s.mp.pos = .copier) (hq : s.lnk.slots.find? Slot.unissued = none) {w g c : Nat}
    (hn : s.cap.plan[s.cap.pos]? = some (.data w g c)) :
    exec .grant s = .next (State.sendToMemory
      { s with
        cap := { s.cap with reads := s.cap.reads + 1, pos := s.cap.pos + 1 }
        lnk := { s.lnk with slots := s.lnk.slots ++ [s.newDataSlot w g c] }
        mp := s.mp.won.append .copier (readBlock s.win.table w g c 0) }) := by
  rw [exec_grant_here hslot hw hg, hp]
  simp only [State.grantTo, State.copierIssue, hq, Cap.next, hn]
  rfl

end

/-- Settles O34, by who stands at the arbiter's position, and by what each requester's work is. -/
theorem grantOutcomes : Obligations.GrantOutcomes := by
  unfold Obligations.GrantOutcomes
  refine ⟨fun w => ⟨rfl, rfl, rfl⟩, fun b id => ⟨rfl, rfl⟩, fun b mask data id => ⟨rfl, rfl⟩, ?_⟩
  intro s slot work
  refine ⟨fun h => exec_grant_impossible (mt s.grantPossible_iff.1 h), ?_,
    fun hslot hwork hcur hcfg h => exec_grant_move (s.grantPossible_iff.2 ⟨hslot, hwork⟩) hcur hcfg h, ?_⟩
  · intro hslot hw hg m
    have joins : ∀ a b, s.mp.won.append a b =
        { m with queue := s.mp.queue ++ [{ access := a, block := b, issued := false }] } := s.mp.won_append
    refine ⟨fun hp q rest hq => ?_, fun hp e he => ?_, fun hp => ⟨fun q hq => ?_, fun w g c hq hn => ?_⟩⟩
    · rw [exec_grant_live hslot hw hg hp hq, joins]
    · rw [exec_grant_drain hslot hw hg hp he, joins]
      rfl
    · rw [exec_grant_copier_filling hslot hw hg hp hq, joins]
    · rw [exec_grant_copier_begins hslot hw hg hp hq hn, joins]
      rfl
  · intro eligible
    have heligible : ∀ e : JEntry, e.eligible s.sp.live = true ↔ eligible e := JEntry.eligible_iff s.sp.live
    refine ⟨s.hasWork_live, ?_, fun e => ?_, s.hasWork_copier, Slot.unissued_iff,
      fun f before after q hb hq => updateFirst_append hb hq f after,
      fun w d hd => ⟨readBlock_of_window hd, fun q ep n c g p hf => ?_⟩⟩
    · simp only [work, s.hasWork_drain, heligible]
    · simp only [Jrn.oldestEligible_eq_some_iff, heligible]
    · rw [Slot.nextBlock_data hf, readBlock_of_window hd]

end Sys2Proof.Machine

/-! ## The management link: the register map, and read and write accesses -/

namespace Sys2Proof.Machine

/-! ### The halves of a pair (R164 to R166) -/

theorem lowHalf_eq (v : Word32) : lowHalf v = BitVec.ofNat 16 v.toNat := rfl

theorem highHalf_eq (v : Word32) : highHalf v = BitVec.ofNat 16 (v.toNat / 65536) := by
  apply BitVec.eq_of_toNat_eq
  simp [highHalf, Nat.shiftRight_eq_div_pow]

theorem toNat_append_halves (h l : Word16) : (h ++ l).toNat = h.toNat * 65536 + l.toNat := by
  rw [BitVec.toNat_append, ← Nat.shiftLeft_add_eq_or_of_lt l.isLt, Nat.shiftLeft_eq]

theorem lowHalf_append (h l : Word16) : lowHalf (h ++ l) = l := by
  apply BitVec.eq_of_toNat_eq
  rw [lowHalf_eq, toNat_append_halves, BitVec.toNat_ofNat]
  omega

theorem highHalf_append (h l : Word16) : highHalf (h ++ l) = h := by
  apply BitVec.eq_of_toNat_eq
  rw [highHalf_eq, toNat_append_halves, BitVec.toNat_ofNat]
  omega

/-! ### What a number of the map names (10.4) -/

/-- A number is a register's, that of a half of a pair, or unimplemented (R191). -/
theorem number_cases (n : Nat) :
    (∃ r : Reg, n = r.number) ∨ (∃ p : Pair, n = p.number) ∨ (∃ p : Pair, n = p.number + 1) ∨
      regAt n = .unimplemented := by
  by_cases hr : ∃ r : Reg, n = r.number
  · exact .inl hr
  by_cases hl : ∃ p : Pair, n = p.number
  · exact .inr (.inl hl)
  by_cases hh : ∃ p : Pair, n = p.number + 1
  · exact .inr (.inr (.inl hh))
  · push Not at hr hl hh
    exact .inr (.inr (.inr (regAt_unimplemented n hr fun p => ⟨hl p, hh p⟩)))

theorem Reg.toNat_field (r : Reg) : (BitVec.ofNat 9 r.number).toNat = r.number := by cases r <;> rfl

/-! ### Read accesses, by what the number names (R158, R163 to R165, R191) -/

theorem State.readAccess_word (s : State) {n : BitVec 9} {r : Reg} (h : regAt n.toNat = .word r) :
    s.frameEnded.readAccess n.toNat = (s.readReg r, (s.clearReg r).accessed n .invalid) := by
  simp only [State.readAccess, h, BitVec.ofNat_toNat, BitVec.setWidth_eq]
  cases r <;> rfl

theorem State.readAccess_low (s : State) {n : BitVec 9} {p : Pair} (h : regAt n.toNat = .low p) :
    s.frameEnded.readAccess n.toNat =
      (lowHalf (s.readPair p), (s.clearPair p).accessed n (.capture p (s.readPair p))) := by
  simp only [State.readAccess, h, BitVec.ofNat_toNat, BitVec.setWidth_eq]
  cases p <;> rfl

theorem State.readAccess_unimplemented (s : State) {n : BitVec 9} (h : regAt n.toNat = .unimplemented) :
    s.frameEnded.readAccess n.toNat = (0, s.accessed n .invalid) := by
  simp only [State.readAccess, h, BitVec.ofNat_toNat, BitVec.setWidth_eq]
  rfl

/-- What a pair shows does not depend on the receiver, the last-accessed register number or the latch. -/
theorem State.readPair_accessed (s : State) (n : BitVec 9) (l : Latch) (p : Pair) :
    (s.accessed n l).readPair p = s.readPair p := by cases p <;> rfl

/-- R165: the access's traces, then the read by what the latch holds. -/
theorem State.readAccess_high (s : State) {n : BitVec 9} {p : Pair} (h : regAt n.toNat = .high p) :
    s.frameEnded.readAccess n.toNat = (s.accessed n s.mgmt.latch).readHigh p := by
  simp only [State.readAccess, h, BitVec.ofNat_toNat, BitVec.setWidth_eq]
  rfl

theorem State.readHigh_capture (s : State) (n : BitVec 9) (p : Pair) (v : Word32) :
    (s.accessed n (.capture p v)).readHigh p = (highHalf v, s.accessed n (.capture p v)) := by
  simp [State.readHigh]

theorem State.readHigh_lowWritten (s : State) (n : BitVec 9) (p : Pair) (v : Word16) :
    (s.accessed n (.lowWritten p v)).readHigh p = (highHalf (s.readPair p), s.accessed n (.lowWritten p v)) := by
  simp [State.readHigh, State.readPair_accessed]

/-- R165: in every other case the current high half is read and the latch becomes INVALID. -/
theorem State.readHigh_other (s : State) (n : BitVec 9) {p : Pair} {l : Latch} (hc : ∀ v, l ≠ .capture p v)
    (hw : ∀ v, l ≠ .lowWritten p v) :
    (s.accessed n l).readHigh p = (highHalf (s.readPair p), s.accessed n .invalid) := by
  have hset : (s.accessed n l).setLatch .invalid = s.accessed n .invalid := rfl
  rw [State.readHigh, s.readPair_accessed, hset]
  cases l with
  | invalid => rfl
  | capture q v =>
    have hq : q ≠ p := fun e => hc v (e ▸ rfl)
    exact if_neg hq
  | lowWritten q v =>
    have hq : q ≠ p := fun e => hw v (e ▸ rfl)
    exact if_neg hq

/-- R185: a register behind which no counter stands is not changed by being read. -/
theorem State.clearReg_of_counter_none (s : State) {r : Reg} (h : r.counter = none) : s.clearReg r = s := by
  rw [State.clearReg, h]

theorem State.clearPair_counter (s : State) {p : Pair} {c : Counter} (h : p.counter = some c) :
    s.clearPair p = { s with stats := s.stats.set c 0 } := by
  rw [State.clearPair, h]

theorem State.clearPair_other (s : State) {p : Pair} (h : p.counter = none) (ha : p ≠ .alertStat) : s.clearPair p = s := by
  rw [State.clearPair, h]
  exact if_neg ha

/-- A read of a high half leaves the state as it is or makes the latch INVALID (R165). -/
theorem State.readHigh_state (s : State) (p : Pair) : (s.readHigh p).2 = s ∨ (s.readHigh p).2 = s.setLatch .invalid := by
  unfold State.readHigh
  split
  · split <;> simp
  · split <;> simp
  · exact .inr rfl

/-- R160: a read access notes its register. -/
theorem State.lastReg_readAccess (s : State) (n : BitVec 9) : (s.frameEnded.readAccess n.toNat).2.mgmt.lastReg = n := by
  cases h : regAt n.toNat with
  | word r => rw [s.readAccess_word h]; rfl
  | low p => rw [s.readAccess_low h]; rfl
  | high p =>
    rw [s.readAccess_high h]
    rcases State.readHigh_state (s.accessed n s.mgmt.latch) p with e | e <;> rw [e] <;> rfl
  | unimplemented => rw [s.readAccess_unimplemented h]; rfl

/-- What is driven is put out once the frame has ended, and not by the access. -/
theorem State.out_readAccess (s : State) (n : Nat) : (s.readAccess n).2.out = s.out :=
  s.readAccess_keeps (P := fun t => t.out = s.out) n rfl (fun _ _ h => h) (fun _ _ h => h) (fun _ _ h => h) (fun _ h => h)

/-- R158, R160: a READ row, whole and after a full preamble, by the read access it makes. -/
theorem exec_readRow_access {c : Instr} {l : Line} {op : Nat} {field reg : BitVec 9} (s : State)
    (h : readRow s c = some (l, op, field, reg)) (hl : l.wf = true) (hs : s.hunting) {v : Word16} {t : State}
    (ha : s.frameEnded.readAccess reg.toNat = (v, t)) :
    exec c s = .next { t with out := s.out ++ [s.driven op field v] } := by
  have ho : t.out = s.out := by
    have hout := s.frameEnded.out_readAccess reg.toNat
    rwa [ha] at hout
  rw [exec_readRow_eq s h hl hs, s.afterRead_eq, ha, ho]

/-! ### Write accesses -/

/-- R159: a WRITE row of the low half of a pair parks its data. -/
theorem exec_lowRow {c : Instr} {w : WriteLine} {n : BitVec 9} {v : Word16} (s : State) (p : Pair)
    (h : writeRow c = some (w, n, v)) (hr : regAt n.toNat = .low p) (hw : w.good) (hs : s.hunting) :
    exec c s = .next (s.accessed n (.lowWritten p v)) := by
  rw [exec_writeRow s h, s.sendWrite_low w n v p hr hw hs]

/-- R166: a WRITE row of the high half of a pair commits its data with the low half it is joined with. -/
theorem exec_highRow {c : Instr} {w : WriteLine} {n : BitVec 9} {v : Word16} (s : State) (p : Pair)
    (h : writeRow c = some (w, n, v)) (hr : regAt n.toNat = .high p) (hw : w.good) (hs : s.hunting) :
    exec c s = .next ((s.accessed n .invalid).commitPair p (v ++ s.joinedLow p)) := by
  rw [exec_writeRow s h, s.sendWrite_high w n v p hr hw hs]

/-- R166: the parked low half of the pair, or the one it shows. -/
theorem State.joinedLow_eq {s : State} {p : Pair} {parked : Word16}
    (h : s.mgmt.latch = .lowWritten p parked ∨
      ((∀ x, s.mgmt.latch ≠ .lowWritten p x) ∧ parked = BitVec.ofNat 16 (s.readPair p).toNat)) :
    s.joinedLow p = parked := by
  unfold State.joinedLow
  rcases h with hl | ⟨hn, rfl⟩
  · simp [hl]
  · split
    · rename_i q x hq
      have hne : q ≠ p := fun e => hn x (e ▸ hq)
      exact if_neg hne
    · rfl

/-- R191: a commit to a pair that software cannot write is discarded. -/
theorem State.commitPair_readOnly (s : State) {p : Pair} (v : Word32)
    (h : p ∉ [Pair.winStgBase, .alertStat, .alertEn, .alertDis]) : s.commitPair p v = s := by
  unfold State.commitPair
  split
  iterate 4 simp at h
  rfl

/-! ### Pairs: reads that capture or use the latch, writes that park or commit (R164 to R166) -/

/-- Settles O53, by what is cleared behind the pair. -/
theorem pairLowReadCapturesAndClears : Obligations.PairLowReadCapturesAndClears := by
  unfold Obligations.PairLowReadCapturesAndClears
  intro s l p hl hs reg v low t
  have hreg : regAt reg.toNat = .low p := by rw [p.toNat_low, regAt_low]
  have he : exec (.readPairLow l reg) s =
      .next { (s.clearPair p).accessed reg (.capture p v) with out := t.out } :=
    exec_readRow_access (op := 1) s rfl hl hs (s.readAccess_low hreg)
  refine ⟨fun hp => ?_, fun c hc => ?_, fun hp => ?_⟩
  · rw [he]
    subst hp
    rfl
  · have counter : p.counter = some c ∧ v = BitVec.ofNat 32 (s.stats.get c) := by
      simp only [List.mem_cons, Prod.mk.injEq, List.not_mem_nil, or_false] at hc
      rcases hc with ⟨rfl, rfl⟩ | ⟨rfl, rfl⟩ | ⟨rfl, rfl⟩ | ⟨rfl, rfl⟩ <;> exact ⟨rfl, rfl⟩
    obtain ⟨hp, hv⟩ := counter
    refine ⟨?_, fun hlt => ?_, s.stats.get_set_self c 0, fun d hd => s.stats.get_set_of_ne 0 hd⟩
    · rw [he, s.clearPair_counter hp]
      rfl
    · rw [hv, BitVec.toNat_ofNat, Nat.mod_eq_of_lt hlt]
  · have other : p.counter = none ∧ p ≠ .alertStat := by
      revert hp
      cases p <;> decide
    rw [he, s.clearPair_other other.1 other.2]

/-- Settles O54, by what the latch holds. -/
theorem pairHighReadUsesTheLatch : Obligations.PairHighReadUsesTheLatch := by
  unfold Obligations.PairHighReadUsesTheLatch
  intro s l p hl hs reg high answer
  have hreg : regAt reg.toNat = .high p := by rw [p.toNat_high, regAt_high]
  have answered : ∀ (latch : Latch) (v : Word32),
      (s.accessed reg s.mgmt.latch).readHigh p = (highHalf v, s.accessed reg latch) → answer latch v := by
    intro latch v h
    rw [highHalf_eq] at h
    exact exec_readRow_access (op := 1) s rfl hl hs ((s.readAccess_high hreg).trans h)
  refine ⟨fun v hv => answered _ _ ?_, fun v hv => answered _ _ ?_, fun hc hw => answered _ _ ?_⟩
  · rw [hv, s.readHigh_capture]
  · rw [hv, s.readHigh_lowWritten]
  · rw [s.readHigh_other reg hc hw]

/-- Settles O55, by whether software can write the pair. -/
theorem pairWritesParkAndCommit : Obligations.PairWritesParkAndCommit := by
  unfold Obligations.PairWritesParkAndCommit
  intro s w p v hw hs low high
  have hlow : regAt low.toNat = .low p := by rw [p.toNat_low, regAt_low]
  have hhigh : regAt high.toNat = .high p := by rw [p.toNat_high, regAt_high]
  refine ⟨exec_lowRow s p rfl hlow hw hs, fun parked hparked => ?_⟩
  intro whole t
  have commit : exec (.writePairHigh w high v) s = .next (t.commitPair p whole) := by
    rw [exec_highRow s p rfl hhigh hw hs, State.joinedLow_eq hparked]
  rw [commit]
  refine ⟨?_, ?_, ?_, ?_, fun hp => ?_⟩
  iterate 4
    rintro rfl
    rfl
  rw [t.commitPair_readOnly whole hp]

end Sys2Proof.Machine

/-! ## Commands that are rejected, and CLEAR_COUNTERS -/

namespace Sys2Proof.Machine

/-- R169: a WRITE to CMD while a command is busy, other than ABORT or RESET over a waiting FREEZE (R9). -/
theorem State.writeCmd_rejected {s : State} {code : Nat} (hb : s.mgmt.busy = true)
    (h : ¬(s.mgmt.code = codeFreeze ∧ (code = codeAbort ∨ code = codeReset))) :
    s.writeCmd code = { s with mgmt := { s.mgmt with rejected := true } } := by
  have hw : ¬(s.freezeWaits = true ∧ (code = codeAbort ∨ code = codeReset)) := fun ⟨hf, hc⟩ =>
    h ⟨by simpa [State.freezeWaits, hb] using hf, hc⟩
  rw [State.writeCmd, if_neg (by simp [hb]), if_neg hw]

/-- Settles O13. -/
theorem commandsAreRejectedWhileBusy : Obligations.CommandsAreRejectedWhileBusy := by
  unfold Obligations.CommandsAreRejectedWhileBusy
  intro s c w v hc hw hs hb hn
  have hcode : ¬(s.mgmt.code = codeFreeze ∧ (v.toNat = codeAbort ∨ v.toNat = codeReset)) := fun ⟨hf, hv⟩ =>
    hn ⟨hf, hv.imp (fun e => BitVec.eq_of_toNat_eq e) (fun e => BitVec.eq_of_toNat_eq e)⟩
  rw [exec_wordRow s .cmd hc rfl hw hs]
  exact congrArg _ (State.writeCmd_rejected (s := s.accessed 0 .invalid) hb hcode)

/-- R172: the counters as CLEAR_COUNTERS leaves them. -/
theorem Stats.get_cleared (n : Nat) (c : Counter) : (Stats.cleared n).get c = if c = .jrnPeak then n else 0 := by
  cases c <;> rfl

/-- Settles O18. -/
theorem clearCountersClearsEveryCounter : Obligations.ClearCountersClearsEveryCounter := by
  unfold Obligations.ClearCountersClearsEveryCounter
  intro s w hw hs hb
  exact ⟨Stats.cleared s.jrn.occupancy, exec_cmdRow (c := .clearCounters w) (v := 7) s rfl hw hs hb,
    Stats.get_cleared s.jrn.occupancy⟩

end Sys2Proof.Machine

/-! ## Management frames: parity, foreign and invalid frames, broken starts and frames that MCK leaves -/

namespace Sys2Proof.Machine

/-- Settles O50. -/
theorem writeFramesAreParityChecked : Obligations.WriteFramesAreParityChecked := by
  unfold Obligations.WriteFramesAreParityChecked
  intro s c w reg v hc hw hs
  rw [exec_writeRow s hc]
  exact ⟨fun hp => congrArg _ (s.sendWrite_bad w reg v hw hs hp), fun hp => congrArg _ (s.sendWrite_good w reg v hw hs hp)⟩

/-- Settles O51. -/
theorem foreignAndInvalidFramesAreNotActedOn : Obligations.ForeignAndInvalidFramesAreNotActedOn := by
  unfold Obligations.ForeignAndInvalidFramesAreNotActedOn
  intro s w op device reg v hw hs
  exact ⟨fun hd => congrArg _ (s.feed_otherDevice w op device reg v hw hs hd),
    congrArg _ (s.feed_invalidOpcode w reg v hw hs)⟩

/-! ### The frame timer (R156) -/

theorem exec_frameTimerExpiry_due {s : State} (hp : s.mgmt.rx.phase ≠ .hunt) (ht : 64 ≤ s.mgmt.rx.timer) :
    exec .frameTimerExpiry s = .next s.frameEnded :=
  congrArg _ (if_pos ⟨hp, ht⟩)

theorem exec_frameTimerExpiry_early {s : State} (h : s.mgmt.rx.phase = .hunt ∨ s.mgmt.rx.timer < 64) :
    exec .frameTimerExpiry s = .next s :=
  congrArg _ (if_neg fun ⟨hp, ht⟩ => h.elim hp (Nat.not_lt.2 ht))

/-- A command does not touch the frame receiver. -/
theorem State.rx_commandClosed (r : Receiver) : CommandClosed fun s => s.mgmt.rx = r where
  mgmt _ _ hr _ _ _ h := hr.trans h
  alert _ _ h := h
  stats _ _ h := h
  resetting _ h := h
  baseline _ h := h
  slot _ _ h := h
  staging _ _ _ h := h
  table _ _ _ _ _ _ h := h
  freezePoint s k _ h := (s.undisturbed_freezePoint .mgmt k).rx.trans h
  cancelSlot s h := s.undisturbed_cancelSlot.rx.trans h
  breakEpoch s c h := (s.undisturbed_breakEpoch c).rx.trans h

theorem State.rx_startRound (s : State) (n : Nat) : (s.startRound n).mgmt.rx = s.mgmt.rx := by
  unfold State.startRound
  split
  · exact (s.undisturbed_breakEpoch _).rx
  · rfl

/-- A write access does not touch the frame receiver. -/
theorem State.rx_writeClosed (r : Receiver) : WriteClosed fun s => s.mgmt.rx = r where
  writeCmd := (State.rx_commandClosed r).writeCmd
  mgmt _ _ hr _ _ _ _ _ h := hr.trans h
  alert _ _ h := h
  stats _ _ h := h
  kinds _ _ _ h := h
  stallLimit _ _ h := h
  epochLimit _ _ h := h
  hwm _ _ _ h := h
  lwm _ _ _ _ h := h
  policy _ _ h := h
  fault _ _ h := h
  staging _ _ _ h := h
  ackTmo _ _ _ h := h
  retryLim _ _ _ _ h := h
  pauseLim _ _ h := h
  weights _ _ _ _ _ h := h
  breakEpoch s c h := (s.undisturbed_breakEpoch c).rx.trans h
  stallExpire s h := s.undisturbed_stallExpire.rx.trans h
  ackExpire s h := ((s.count .ackTimeouts).rx_startRound s.lnk.ackPt).trans h

theorem State.rx_writeAccess (s : State) (n : Nat) (v : Word16) : (s.writeAccess n v).mgmt.rx = s.mgmt.rx :=
  (State.rx_writeClosed s.mgmt.rx).writeAccess s n v rfl

/-- R155: the end of a frame leaves the receiver in HUNT with a count of 0. -/
theorem State.rx_frameDone (s : State) (role : RxRole) (bits : List Bool) :
    (s.frameDone role bits).mgmt.rx = Receiver.idle := by
  unfold State.frameDone
  simp only
  split
  · rfl
  · rfl
  · rfl
  · rfl
  · split
    · rfl
    · exact (s.setRx Receiver.idle).rx_writeAccess _ _

/-- R157: the decision at the end of a header leads into TURNAROUND. -/
theorem State.rx_headerDone (s : State) (bits : List Bool) :
    ∃ role, (s.headerDone bits).mgmt.rx = Receiver.follow bits role := by
  unfold State.headerDone
  simp only
  repeat' split
  all_goals exact ⟨_, rfl⟩

/-- R156: a bit sampled of a frame in progress restarts the frame timer. -/
theorem State.timer_sampleBit (s : State) (b : Bool) (h : s.mgmt.rx.phase ≠ .hunt) :
    (s.sampleBit b).mgmt.rx.timer = 0 := by
  unfold State.sampleBit
  simp only
  split
  case h_1 hp => exact absurd hp h
  case h_2 =>
    repeat' split
    all_goals rfl
  case h_3 =>
    split
    · rfl
    · obtain ⟨role, e⟩ := s.rx_headerDone (b :: s.mgmt.rx.bits)
      rw [e]
      rfl
  case h_4 => rfl
  case h_5 => rfl
  case h_6 => rw [s.rx_frameDone]; rfl

/-! ### Frames that MCK leaves (R155 to R160) -/

/-- R158: in HUNT, START and HEADER nothing is driven. -/
theorem Receiver.drive_before_header {r : Receiver} (h : r.phase = .hunt ∨ r.phase = .start ∨ r.phase = .header) :
    r.drive = none := by
  unfold Receiver.drive
  rcases h with h | h | h <;> rw [h] <;> split <;> rfl

theorem Receiver.phase_inFrame_ne_hunt (bits : List Bool) (role : RxRole) : (Receiver.inFrame bits role).phase ≠ .hunt :=
  phaseAfter_ne_hunt bits.length

/-- R157, R159: the header of a frame that is for another device, has an invalid opcode or is a WRITE. -/
theorem State.headerDone_silent (s : State) (r : Receiver) {op : Nat} {d : BitVec 4} (reg : BitVec 9) (hop : op < 4)
    (h : d ≠ s.mgmt.straps ∨ op = 0 ∨ op = 2) :
    ∃ role, (∀ v, role ≠ .read v) ∧
      (s.setRx r).headerDone (headerBits op d reg).reverse =
        s.setRx (Receiver.follow (headerBits op d reg).reverse role) := by
  rw [s.headerDone_headerBits r op d reg hop]
  by_cases hd : d.toNat ≠ s.mgmt.straps.toNat
  · exact ⟨.otherDevice, nofun, if_pos hd⟩
  rw [if_neg hd]
  have hd' : d = s.mgmt.straps := BitVec.eq_of_toNat_eq (not_not.1 hd)
  rcases h with hn | rfl | rfl
  · exact absurd hd' hn
  · exact ⟨.invalidOpcode, nofun, rfl⟩
  · exact ⟨.write, nofun, rfl⟩

/-- R156, R157, R159: such a frame, cut before its last bit, changes the receiver alone, and the part drives nothing. -/
theorem State.feed_cut_silent (s : State) (w : WriteLine) {op : Nat} {d : BitVec 4} (reg : BitVec 9) (v : Word16) {k : Nat}
    (hop : op < 4) (h : d ≠ s.mgmt.straps ∨ op = 0 ∨ op = 2) (hs : s.hunting) (ho : 16 ≤ w.line.ones)
    (hc : w.line.cut = some k) (h1 : 1 ≤ k) (hk : k < 38) :
    ∃ rx : Receiver, rx.phase ≠ .hunt ∧ rx.timer = 0 ∧ rx.drive = none ∧
      s.feed (lineBits w.line (drivenFrame (headerBits op d reg) w.turn v w.badParity)) = s.setRx rx := by
  rw [drivenFrame_eq]
  by_cases h19 : k < 19
  · obtain ⟨rx, hp, ht, he⟩ := s.feed_line_early w.line (headerBits op d reg)
      (drivenBody (headerBits op d reg) w.turn v w.badParity) k ho hc hs (by simp) h1 h19
    refine ⟨rx, ?_, ht, Receiver.drive_before_header (.inr hp), he⟩
    rcases hp with e | e <;> rw [e] <;> decide
  · obtain ⟨role, hrole, he⟩ := s.headerDone_silent (Receiver.inHeader (headerBits op d reg).reverse.tail) reg hop h
    rw [s.feed_line_late w.line _ _ k ho hc hs (by simp) (by omega), he,
      s.feed_follow _ _ _ (by simp) (by simp; omega)]
    exact ⟨_, Receiver.phase_inFrame_ne_hunt _ _, rfl, Receiver.drive_eq_none _ hrole, rfl⟩

/-- R158: the sampling of a read does not depend on what the receiver held. -/
theorem State.sampleRead_setRx (s : State) (r : Receiver) (bits : List Bool) (n : Nat) :
    (s.setRx r).sampleRead bits n =
      (s.readAccess n).2.setRx (Receiver.follow bits (.read (s.readAccess n).1)) := by
  rw [State.sampleRead, s.readAccess_setRx]
  rfl

/-- The rows that apply nothing before their last bit, by the frames they send: every WRITE, and the frames of R157. -/
theorem exec_silentRow (s : State) {c : Instr} {w : WriteLine}
    (h : (∃ reg v, writeRow c = some (w, reg, v)) ∨
      (∃ op device reg v, c = .frameForOtherDevice w op device reg v ∧ device ≠ s.mgmt.straps) ∨
      (∃ reg v, c = .invalidOpcodeFrame w reg v)) :
    ∃ op d reg v, op < 4 ∧ (d ≠ s.mgmt.straps ∨ op = 0 ∨ op = 2) ∧
      exec c s = .next (s.feed (lineBits w.line (drivenFrame (headerBits op d reg) w.turn v w.badParity))) := by
  rcases h with ⟨reg, v, hr⟩ | ⟨op, d, reg, v, rfl, hd⟩ | ⟨reg, v, rfl⟩
  · exact ⟨2, s.mgmt.straps, reg, v, by decide, .inr (.inr rfl), exec_writeRow s hr⟩
  · exact ⟨op.toNat, d, reg, v, op.isLt, .inl hd, rfl⟩
  · exact ⟨0, s.mgmt.straps, reg, v, by decide, .inr (.inl rfl), rfl⟩

/-- R158, R160: at the last bit of its register number a READ or READ_NEXT makes its access. -/
theorem State.headerDone_readRow (s : State) (r : Receiver) {op : Nat} {field reg : BitVec 9}
    (h : (op = 1 ∧ reg = field) ∨ (op = 3 ∧ reg.toNat = s.nextReg)) :
    (s.setRx r).headerDone (headerBits op s.mgmt.straps field).reverse =
      (s.readAccess reg.toNat).2.setRx
        (Receiver.follow (headerBits op s.mgmt.straps field).reverse (.read (s.readAccess reg.toNat).1)) := by
  rcases h with ⟨rfl, rfl⟩ | ⟨rfl, hn⟩
  · rw [s.headerDone_headerBits r _ _ _ (by decide), if_neg (by simp)]
    exact s.sampleRead_setRx r _ _
  · rw [s.headerDone_headerBits r _ _ _ (by decide), if_neg (by simp), hn]
    exact s.sampleRead_setRx r _ _

/-- R158: the bits of a whole read frame, written out, hold an even number of ones. -/
theorem count_readFrame_even (op : Nat) (d : BitVec 4) (field : BitVec 9) (v : Word16) :
    (msbBits 2 op ++ msbBits 4 d.toNat ++ msbBits 9 field.toNat ++ msbBits 16 v.toNat ++
      [oddOnes (headerBits op d field ++ msbBits 16 v.toNat)]).count true % 2 = 0 := by
  have h : msbBits 2 op ++ msbBits 4 d.toNat ++ msbBits 9 field.toNat ++ msbBits 16 v.toNat =
      headerBits op d field ++ msbBits 16 v.toNat := by simp [headerBits]
  rw [h]
  exact count_append_oddOnes _

/-- R156, R158, R160: a READ row cut before the last bit of its register number. -/
theorem exec_readRow_cut_early {c : Instr} {l : Line} {op : Nat} {field reg : BitVec 9} {k : Nat} (s : State)
    (h : readRow s c = some (l, op, field, reg)) (hs : s.hunting) (ho : 16 ≤ l.ones) (hc : l.cut = some k) (h1 : 1 ≤ k)
    (h19 : k < 19) :
    ∃ rx : Receiver, (rx.phase = .start ∨ rx.phase = .header) ∧ rx.timer = 0 ∧ exec c s = .next (s.setRx rx) := by
  obtain ⟨rx, hp, ht, he⟩ := s.feed_line_early l (headerBits op s.mgmt.straps field) (List.replicate 19 true) k ho hc hs
    (by simp) h1 h19
  exact ⟨rx, hp, ht, by rw [(exec_readRow s h).1, readFrame_eq, he]⟩

/-- R156, R158, R160: a READ row cut after the last bit of its register number: the access has been made, and the receiver
waits for the rest of the frame. -/
theorem exec_readRow_cut_late {c : Instr} {l : Line} {op : Nat} {field reg : BitVec 9} {k : Nat} (s : State)
    (h : readRow s c = some (l, op, field, reg)) (hs : s.hunting) (ho : 16 ≤ l.ones) (hc : l.cut = some k) (h19 : 19 ≤ k)
    (hk : k < 38) :
    exec c s = .next ((s.readAccess reg.toNat).2.setRx
      (Receiver.inFrame (List.replicate (k - 19) true ++ (headerBits op s.mgmt.straps field).reverse)
        (.read (s.readAccess reg.toNat).1))) := by
  obtain ⟨he, hop⟩ := exec_readRow s h
  rw [he, readFrame_eq, s.feed_line_late l _ _ k ho hc hs (by simp) h19, s.headerDone_readRow _ hop,
    State.feed_follow _ _ _ _ (by simp) (by simp; omega), List.take_replicate, List.reverse_replicate,
    min_eq_left (by omega)]

/-- R158: what the part drives when `j` bits have come after the header of a read frame. -/
theorem Receiver.drive_after_header (header : List Bool) (hh : header.length = 15) (v : Word16) (j : Nat) :
    (Receiver.inFrame (List.replicate j true ++ header.reverse) (.read v)).drive =
      if j < 1 then none else if j = 1 then some false else if j < 18 then some (v.getLsbD (17 - j))
      else some (readParity ((List.replicate j true ++ header.reverse).drop 18) v) := by
  have hlen : (List.replicate j true ++ header.reverse).length = j + 15 := by simp [hh]
  have e1 : j + 15 < 16 ↔ j < 1 := by omega
  have e2 : j + 15 = 16 ↔ j = 1 := by omega
  have e3 : j + 15 < 33 ↔ j < 18 := by omega
  have e4 : 32 - (j + 15) = 17 - j := by omega
  simp only [Receiver.drive_inFrame, hlen, e1, e2, e3, e4]

/-- R158: with data and header behind it the parity bit is driven. -/
theorem Receiver.drive_parity (header : List Bool) (hh : header.length = 15) (v : Word16) :
    (Receiver.inFrame (List.replicate 18 true ++ header.reverse) (.read v)).drive =
      some (oddOnes (header ++ msbBits 16 v.toNat)) := by
  rw [Receiver.drive_after_header header hh, List.drop_left' (by simp), readParity_reverse]
  rfl

/-- The frame timer drops a frame in progress; what the frame has done stays (R156). -/
theorem exec_frameTimerExpiry_drops (s : State) {r : Receiver} (hp : r.phase ≠ .hunt) {timer : Nat} (ht : 64 ≤ timer) :
    exec .frameTimerExpiry (s.setRx { r with timer := timer }) = .next s.frameEnded :=
  exec_frameTimerExpiry_due (s := s.setRx { r with timer := timer }) hp ht

/-- Settles O52: broken starts, the timer, and frames cut before or after the last bit of the register number. -/
theorem brokenStartsAndFrameTimeouts : Obligations.BrokenStartsAndFrameTimeouts := by
  unfold Obligations.BrokenStartsAndFrameTimeouts
  intro bits at_
  refine ⟨fun s ones k hs ho => congrArg _ (s.feed_mismatch ones k hs ho), fun s => exec_frameTimerExpiry_due,
    fun s => exec_frameTimerExpiry_early, State.timer_sampleBit, ?_, ?_, fun rx => Receiver.drive_before_header⟩
  · intro s c w k hc hs ho hcut h1 hk
    obtain ⟨op, d, reg, v, hop, hsilent, he⟩ := exec_silentRow s hc
    obtain ⟨rx, hp, ht, hdrive, hfeed⟩ := s.feed_cut_silent w reg v hop hsilent hs ho hcut h1 hk
    exact ⟨rx, hp, ht, hdrive, he.trans (congrArg _ hfeed), fun timer => exec_frameTimerExpiry_drops s hp⟩
  · intro s c l op field reg k hr hs ho hcut h1 hk a t
    by_cases h19 : k < 19
    · have hts : t = s := if_pos h19
      obtain ⟨rx, hp, ht, he⟩ := exec_readRow_cut_early s hr hs ho hcut h1 h19
      have hhunt : rx.phase ≠ .hunt := by rcases hp with e | e <;> rw [e] <;> decide
      rw [hts]
      exact ⟨rx, hhunt, ht, he, fun _ => Receiver.drive_before_header (.inr hp), by omega, by omega, by omega,
        fun timer => exec_frameTimerExpiry_drops s hhunt⟩
    · have hta : t = a.2 := if_neg h19
      have hh := length_headerBits op s.mgmt.straps field
      have drive := Receiver.drive_after_header _ hh a.1 (k - 19)
      rw [hta]
      refine ⟨_, Receiver.phase_inFrame_ne_hunt _ _, rfl, exec_readRow_cut_late s hr hs ho hcut (by omega) hk, fun h20 => ?_,
        fun h20 => ?_, fun h21 h37 => ?_,
        fun h37 => ⟨oddOnes (headerBits op s.mgmt.straps field ++ msbBits 16 a.1.toNat), ?_, ?_⟩,
        fun timer => exec_frameTimerExpiry_drops a.2 (Receiver.phase_inFrame_ne_hunt _ _)⟩
      · rw [drive, if_pos (by omega)]
      · rw [drive, if_neg (by omega), if_pos (by omega)]
      · rw [drive, if_neg (by omega), if_neg (by omega), if_pos (by omega), show 17 - (k - 19) = 36 - k by omega]
      · subst h37
        exact Receiver.drive_parity _ hh a.1
      · simp only [bits, ← msbBits_eq]
        exact count_readFrame_even op s.mgmt.straps field a.1

end Sys2Proof.Machine

/-! ## What the registers show: the reset values, and the status registers field by field (10.4 to 10.6) -/

namespace Sys2Proof.Machine

/-! ### After power-on reset (R27, R161, 10.4) -/

/-- The part as a power-on reset leaves it. -/
def State.poweredOn (s : State) (straps : BitVec 4) (high : Bool) : State :=
  { State.reset with
    mgmt := { Mgmt.reset with straps := straps }
    frz := { Frz.reset with lineSeenLow := !high }
    pending := s.pending
    out := s.out ++ s.lnk.cutOutput ++ [.memReset] }

theorem exec_powerOnReset (s : State) (straps : BitVec 4) (high : Bool) :
    exec (.powerOnReset straps high) s = .next (s.poweredOn straps high) := rfl

theorem State.readReg_poweredOn (s : State) (straps : BitVec 4) (high : Bool) {r : Reg} (h : r ≠ .mgmtStat) :
    (s.poweredOn straps high).readReg r = State.reset.readReg r := by
  cases r
  case mgmtStat => exact absurd rfl h
  all_goals rfl

theorem State.readPair_poweredOn (s : State) (straps : BitVec 4) (high : Bool) (p : Pair) :
    (s.poweredOn straps high).readPair p = State.reset.readPair p := by cases p <;> rfl

theorem State.readReg_reset (r : Reg) : State.reset.readReg r = mapResetValue r.number := by cases r <;> decide

theorem State.readPair_reset (p : Pair) :
    State.reset.readPair p = mapResetValue (p.number + 1) ++ mapResetValue p.number := by cases p <;> decide

/-- R191: the map gives no value for an unimplemented number. -/
theorem mapResetValue_unimplemented {n : Nat} (h : regAt n = .unimplemented) : mapResetValue n = 0 := by
  unfold mapResetValue
  split
  iterate 13 exact absurd h (by decide)
  rfl

/-- Every number but MGMT_STAT's reads its value of 10.4, by what it names. -/
theorem State.readAccess_poweredOn (s : State) (straps : BitVec 4) (high : Bool) {n : BitVec 9} (hn : n ≠ 3) :
    ((s.poweredOn straps high).frameEnded.readAccess n.toNat).1 = mapResetValue n.toNat := by
  have hlatch : (s.poweredOn straps high).mgmt.latch = .invalid := rfl
  rcases number_cases n.toNat with ⟨r, h⟩ | ⟨p, h⟩ | ⟨p, h⟩ | h
  · have hr : r ≠ .mgmtStat := by
      rintro rfl
      exact hn (BitVec.eq_of_toNat_eq h)
    rw [State.readAccess_word _ (by rw [h, regAt_reg]), s.readReg_poweredOn straps high hr, State.readReg_reset, h]
  · rw [State.readAccess_low _ (by rw [h, regAt_low]), s.readPair_poweredOn, State.readPair_reset, lowHalf_append, h]
  · rw [State.readAccess_high _ (by rw [h, regAt_high]), hlatch, State.readHigh_other _ n (by simp) (by simp),
      s.readPair_poweredOn, State.readPair_reset, highHalf_append, h]
  · rw [State.readAccess_unimplemented _ h, mapResetValue_unimplemented h]

/-- Settles O2: MGMT_STAT reads the straps sampled, every other number its value of 10.4. -/
theorem powerOnResetReadsTheMapsValues : Obligations.PowerOnResetReadsTheMapsValues := by
  unfold Obligations.PowerOnResetReadsTheMapsValues
  intro s straps high
  refine ⟨_, exec_powerOnReset s straps high, fun n => ?_⟩
  split
  · subst n
    rfl
  · exact s.readAccess_poweredOn straps high ‹_›

/-! ### The status registers (10.6) -/

@[simp] theorem fields_nil : fields [] = 0 := rfl

@[simp] theorem fields_cons (v k : Nat) (fs : List (Nat × Nat)) : fields ((v, k) :: fs) = v * 2 ^ k + fields fs := by
  simp [fields]

theorem Mgmt.cmdStat_eq (g : Mgmt) : g.cmdStat = flag g.busy + 2 * flag g.rejected + 4 * g.result.code + 256 * g.code := by
  simp only [Mgmt.cmdStat, fields_cons, fields_nil]
  omega

/-- FRZ_STAT's fields of the pending-freeze slot: whether a request waits, its source and its kind. -/
def slotFields (slot : Option FreezeReq) : Nat :=
  slot.elim 0 fun q => 32 + 64 * q.source.code + 256 * q.kind.code

/-- The code of the newest epoch's state, 0 with none. -/
def newestCode (history : List EpochRecord) : Nat := history.head?.elim 0 fun r => r.state.code

theorem Frz.stat_eq (z : Frz) :
    z.stat = z.st.code + 4 * newestCode z.history + slotFields z.slot + 1024 * flag z.baseline := by
  unfold Frz.stat newestCode slotFields
  cases z.history <;> cases z.slot <;>
    simp [flag] <;> omega

theorem State.jrnStat_eq (s : State) :
    s.jrnStat = s.jrn.issuedCount + 16 * flag s.jrn.armed + 32 * flag (decide (s.frz.stall = some .exhaustion)) := by
  simp only [State.jrnStat, fields_cons, fields_nil]
  omega

theorem DrainFault.info_eq (f : DrainFault) : f.info = f.block.toNat / 32 % 8 + 8 * f.window + 256 * f.count := by
  simp only [DrainFault.info, fields_cons, fields_nil]
  omega

theorem Lnk.stat_eq (l : Lnk) :
    l.stat = flag l.up + 2 * l.ctl.code + 8 * flag (decide (l.pauseTimer ≠ 0)) + 16 * flag l.abandon.isSome +
      32 * l.retry + 512 * l.slots.length + 16384 * l.lastReject.code := by
  simp only [Lnk.stat, fields_cons, fields_nil, Nat.pos_iff_ne_zero]
  omega

theorem State.laneStat_eq (s : State) :
    s.laneStat = s.sp.rlane.length + 16 * s.sp.wlane.length + 256 * s.sp.rcred + 4096 * s.sp.wcred +
      65536 * flag s.resetting := by
  simp only [State.laneStat, fields_cons, fields_nil]
  omega

theorem Sp.listStat_eq (p : Sp) :
    p.listStat = p.reads.length + 64 * p.writes.length + 2048 * p.liveCount + 65536 * flag (decide (p.claims ≠ 0)) := by
  simp only [Sp.listStat, fields_cons, fields_nil, Nat.pos_iff_ne_zero]
  omega

theorem Mp.stat_eq (m : Mp) :
    m.stat = m.queue.length + 64 * m.issuedCount + 2048 * m.pos.code + 65536 * m.grants := by
  simp only [Mp.stat, fields_cons, fields_nil]
  omega

theorem State.readReg_capStat (s : State) :
    s.readReg .capStat =
      BitVec.ofNat 16 (s.cap.st.code + 4 * flag (decide (s.cap.fence ≠ 0)) + 256 * s.cap.stale) := by
  simp only [State.readReg, fields_cons, fields_nil, Nat.pos_iff_ne_zero]
  congr 1
  omega

theorem State.readReg_mgmtStat (s : State) : s.readReg .mgmtStat = BitVec.ofNat 16 s.mgmt.straps.toNat :=
  (BitVec.ofNat_toNat 16 s.mgmt.straps).symm

theorem State.readReg_frzCfg (s : State) :
    s.readReg .frzCfg = BitVec.ofNat 16 (s.frz.lineKind.code + 4 * s.frz.markerKind.code) := by
  simp only [State.readReg, fields_cons, fields_nil]
  congr 1
  omega

theorem State.readReg_jrnCfg (s : State) :
    s.readReg .jrnCfg = BitVec.ofNat 16 (match s.jrn.policy with | .hold => 0 | .break_ => 1) := by
  rw [State.readReg]
  cases s.jrn.policy <;> rfl

theorem State.readReg_winStgCtl (s : State) :
    s.readReg .winStgCtl = BitVec.ofNat 16 (s.win.stgKind.toNat + 256 * s.win.stgFill.toNat) := by
  simp only [State.readReg, fields_cons, fields_nil]
  congr 1
  omega

theorem State.readReg_arbCfg (s : State) :
    s.readReg .arbCfg =
      BitVec.ofNat 16 (s.mp.cfg.live.toNat + 16 * s.mp.cfg.drain.toNat + 256 * s.mp.cfg.copier.toNat) := by
  simp only [State.readReg, fields_cons, fields_nil]
  congr 1
  omega

theorem State.readPair_drnFaultAddr (s : State) :
    s.readPair .drnFaultAddr = BitVec.ofNat 32 (s.jrn.fault.block.toNat / 256) := by
  apply BitVec.eq_of_toNat_eq
  simp [State.readPair, Nat.shiftRight_eq_div_pow]

/-! ### Plain reads (R158, R163, R191) -/

theorem Reg.counter_eq_none {r : Reg} (h : r.number < 0x088 ∨ 0x099 < r.number) : r.counter = none := by
  revert h
  cases r <;> decide

theorem exec_counterRead_plain (s : State) (l : Line) (r : Reg) (hl : l.wf = true) (hs : s.hunting) (hc : r.counter = none) :
    exec (.counterRead l (BitVec.ofNat 9 r.number)) s =
      .next { s.accessed (BitVec.ofNat 9 r.number) .invalid with
        out := s.out ++ [s.driven 1 (BitVec.ofNat 9 r.number) (s.readReg r)] } := by
  have hreg : regAt (BitVec.ofNat 9 r.number).toNat = .word r := by rw [r.toNat_field, regAt_reg]
  have ha := s.readAccess_word hreg
  rw [s.clearReg_of_counter_none hc] at ha
  exact exec_readRow_access (op := 1) s rfl hl hs ha

theorem exec_counterRead_unimplemented (s : State) (l : Line) (n : BitVec 9) (hl : l.wf = true) (hs : s.hunting)
    (hn : regAt n.toNat = .unimplemented) :
    exec (.counterRead l n) s = .next { s.accessed n .invalid with out := s.out ++ [s.driven 1 n 0] } :=
  exec_readRow_access (op := 1) s rfl hl hs (s.readAccess_unimplemented hn)

/-- R160: 511 is followed by 0. -/
theorem nextReg_wraps (n : BitVec 9) : (n = 511 → n + 1 = 0) ∧ (n ≠ 511 → (n + 1).toNat = n.toNat + 1) := by
  refine ⟨fun h => by rw [h]; rfl, fun h => ?_⟩
  bv_omega

/-- Settles O58: the map, the reads, and what each register shows. -/
theorem plainReadsAndReadNext : Obligations.PlainReadsAndReadNext := by
  unfold Obligations.PlainReadsAndReadNext
  intro words pairs bits
  refine ⟨⟨?_, ?_, ?_⟩, ?_, ?_, ?_, ?_, ?_⟩
  · intro n r h
    have hn : ∀ q ∈ words, q.1 = q.2.number := by decide
    obtain rfl : n = r.number := hn (n, r) h
    exact ⟨rfl, regAt_reg r⟩
  · intro n p h
    have hn : ∀ q ∈ pairs, q.1 = q.2.number := by decide
    obtain rfl : n = p.number := hn (n, p) h
    exact ⟨rfl, regAt_low p, regAt_high p⟩
  · intro n hw hp hh
    have word : ∀ r : Reg, r.number ∈ words.map Prod.fst := by intro r; cases r <;> decide
    have pair : ∀ p : Pair, (p.number, p) ∈ pairs := by intro p; cases p <;> decide
    exact regAt_unimplemented n (fun r e => hw (e ▸ word r))
      fun p => ⟨fun e => hp (e ▸ List.mem_map_of_mem (pair p)), hh _ (pair p)⟩
  · intro s op field v
    refine ⟨_, rfl, ?_⟩
    simp only [bits, ← msbBits_eq]
    exact count_readFrame_even op s.mgmt.straps field v
  · intro s c l op field reg h hl hs a
    exact ⟨exec_readRow_access s h hl hs rfl, s.lastReg_readAccess reg⟩
  · intro s l field
    exact ⟨_, rfl, nextReg_wraps s.mgmt.lastReg⟩
  · intro s l hl hs
    exact ⟨fun r hr => exec_counterRead_plain s l r hl hs (Reg.counter_eq_none hr),
      fun n hn => exec_counterRead_unimplemented s l n hl hs hn⟩
  · intro s bit kind source
    refine ⟨congrArg (BitVec.ofNat 16) s.mgmt.cmdStat_eq, (congrArg (BitVec.ofNat 16) s.frz.stat_eq).trans ?_,
      congrArg (BitVec.ofNat 16) s.jrnStat_eq, s.readReg_capStat, congrArg (BitVec.ofNat 16) s.lnk.stat_eq,
      congrArg (BitVec.ofNat 32) s.laneStat_eq, congrArg (BitVec.ofNat 32) s.sp.listStat_eq,
      congrArg (BitVec.ofNat 32) s.mp.stat_eq, congrArg (BitVec.ofNat 16) s.jrn.fault.info_eq, s.readPair_drnFaultAddr, rfl,
      s.readReg_frzCfg, s.readReg_jrnCfg, s.readReg_winStgCtl, s.readReg_arbCfg, s.readReg_mgmtStat, ?_⟩
    · cases s.frz.history <;> cases s.frz.slot <;> rfl
    · and_intros <;> rfl

end Sys2Proof.Machine

/-! ## Alerts and the statistics counters -/

namespace Sys2Proof.Machine

/-! ### The numbers of the alert events (R177) -/

theorem AlertEvent.number_eq_ctorIdx (e : AlertEvent) : e.number = e.ctorIdx := by cases e <;> rfl

theorem AlertEvent.number_inj {e f : AlertEvent} : e.number = f.number ↔ e = f := by
  refine ⟨fun h => ?_, congrArg _⟩
  rw [e.number_eq_ctorIdx, f.number_eq_ctorIdx] at h
  rw [← AlertEvent.ofNat_ctorIdx e, h, AlertEvent.ofNat_ctorIdx]

theorem AlertEvent.number_lt (e : AlertEvent) : e.number < 17 := by cases e <;> decide

theorem AlertEvent.number_ofNat : ∀ n < 17, (AlertEvent.ofNat n).number = n := by decide

/-! ### Mask, status and ALERT_N, bit by bit (R178, R179, R181, R182) -/

theorem AlertEvent.getLsbD_bit (e f : AlertEvent) : e.bit.getLsbD f.number = decide (f = e) := by
  have hf := f.number_lt
  rw [AlertEvent.bit, ← BitVec.twoPow_eq, BitVec.getLsbD_twoPow, Bool.eq_iff_iff]
  simp [AlertEvent.number_inj, e.number_lt, eq_comm]

theorem Alert.raise_of_masked {a : Alert} {e : AlertEvent} (h : a.mask.getLsbD e.number = true) : a.raise e = a :=
  if_pos h

theorem Alert.raise_of_unmasked {a : Alert} {e : AlertEvent} (h : a.mask.getLsbD e.number = false) :
    a.raise e = { a with status := a.status ||| e.bit } :=
  if_neg (by simp [h])

/-- R178: a raise sets the event's own status bit if the event is unmasked, and no other. -/
theorem Alert.getLsbD_raise_status (a : Alert) (e f : AlertEvent) :
    (a.raise e).status.getLsbD f.number =
      (a.status.getLsbD f.number || (decide (f = e) && !a.mask.getLsbD e.number)) := by
  cases hm : a.mask.getLsbD e.number with
  | true => simp [Alert.raise_of_masked hm]
  | false => simp [Alert.raise_of_unmasked hm, AlertEvent.getLsbD_bit]

/-- R182: every bit of the status is an event's. -/
theorem Alert.asserted_iff (a : Alert) : a.asserted = true ↔ ∃ g : AlertEvent, a.status.getLsbD g.number = true := by
  rw [Alert.asserted, decide_eq_true_iff]
  constructor
  · intro hne
    by_contra hnone
    refine hne (BitVec.eq_of_getLsbD_eq fun i hi => ?_)
    have hbit : a.status.getLsbD i = false := by
      rw [← AlertEvent.number_ofNat i hi, ← Bool.not_eq_true]
      exact fun h => hnone ⟨_, h⟩
    exact hbit.trans BitVec.getLsbD_zero.symm
  · rintro ⟨g, hg⟩ h0
    rw [h0] at hg
    exact Bool.false_ne_true (BitVec.getLsbD_zero.symm.trans hg)

/-- R177: the part of a written value that stands at an event's number reaches the seventeen bits unchanged. -/
theorem AlertEvent.getLsbD_setWidth (e : AlertEvent) (v : Word32) : (v.setWidth 17).getLsbD e.number = v.getLsbD e.number := by
  simp [e.number_lt]

theorem Alert.getLsbD_enable_mask (a : Alert) (v : Word32) (e : AlertEvent) :
    (a.enable v).mask.getLsbD e.number = (a.mask.getLsbD e.number && !v.getLsbD e.number) := by
  rw [Alert.enable, BitVec.getLsbD_and, BitVec.getLsbD_not, e.getLsbD_setWidth, decide_eq_true e.number_lt, Bool.true_and]

theorem Alert.getLsbD_disable_mask (a : Alert) (v : Word32) (e : AlertEvent) :
    (a.disable v).mask.getLsbD e.number = (a.mask.getLsbD e.number || v.getLsbD e.number) := by
  rw [Alert.disable, BitVec.getLsbD_or, e.getLsbD_setWidth]

theorem Alert.getLsbD_testWrite_status (a : Alert) (v : Word32) (e : AlertEvent) :
    (a.testWrite v).status.getLsbD e.number = (a.status.getLsbD e.number || v.getLsbD e.number) := by
  rw [Alert.testWrite, BitVec.getLsbD_or, e.getLsbD_setWidth]

/-! ### The committing writes (R166, R179, R181) -/

/-- ALERT_STAT's low half shows the status of events 0 to 15. -/
theorem State.lowHalf_alertStat (s : State) :
    lowHalf (s.readPair .alertStat) = BitVec.ofNat 16 s.alert.status.toNat := by
  have hlt := s.alert.status.isLt
  have hv : (s.readPair .alertStat).toNat = s.alert.status.toNat := by
    rw [State.readPair, BitVec.toNat_setWidth, Nat.mod_eq_of_lt (by omega)]
  rw [lowHalf_eq, hv]

/-- Settles O56, bit by bit for the raises and the commits, and by the pair of each WRITE row. -/
theorem alertMaskAndStatusWrites : Obligations.AlertMaskAndStatusWrites := by
  unfold Obligations.AlertMaskAndStatusWrites
  refine ⟨?_, fun a e f => ⟨a.raise_mask e, a.getLsbD_raise_status e f, a.asserted_iff⟩,
    fun a v => ⟨rfl, rfl, rfl, fun e =>
      ⟨a.getLsbD_enable_mask v e, a.getLsbD_disable_mask v e, a.getLsbD_testWrite_status v e⟩⟩, ?_⟩
  · intro e
    cases e <;> rfl
  · intro s w v hw hs whole
    have joined : ∀ p : Pair, v ++ s.joinedLow p = whole p (lowHalf (s.readPair p)) := by
      intro p
      unfold State.joinedLow
      cases h : s.mgmt.latch <;> simp only [whole, h]
    refine ⟨?_, ?_, ?_⟩
    · rw [exec_highRow s .alertEn rfl rfl hw hs, joined]
      rfl
    · rw [exec_highRow s .alertDis rfl rfl hw hs, joined]
      rfl
    · rw [exec_highRow s .alertStat rfl rfl hw hs, joined, s.lowHalf_alertStat]
      rfl

/-! ### Counters and the reads that clear them (R184, R185, R189) -/

/-- R184: a counter stops at the maximum of its width: 32, 8 or 16 bits. -/
theorem Counter.max_eq (c : Counter) :
    c.max =
      if c ∈ [Counter.framesSent, .framesResent, .jrnAllocs, .jrnMerges] then 4294967295
      else if c ∈ [Counter.markersRefused, .freezesRefused, .tagErrors, .drainLosses, .creditOverruns, .mgmtFrameErrors,
        .lockLosses] then 255
      else 65535 := by
  cases c <;> rfl

/-- The counters that a read sets to 0 (R185), each with the number of its register (10.4). -/
def zeroedCounters : List (Nat × Counter) :=
  (allRegs.filterMap fun r => r.counter.map fun c => (r.number, c)).filter fun q => q.2 ≠ .jrnPeak

theorem mem_zeroedCounters {n : Nat} {c : Counter} (h : (n, c) ∈ zeroedCounters) :
    ∃ r : Reg, n = r.number ∧ r.counter = some c ∧ c ≠ .jrnPeak := by
  obtain ⟨hmem, hpeak⟩ := List.mem_filter.1 h
  obtain ⟨r, -, hr⟩ := List.mem_filterMap.1 hmem
  obtain ⟨c', hc, hq⟩ := Option.map_eq_some_iff.1 hr
  cases hq
  exact ⟨r, rfl, hc, of_decide_eq_true hpeak⟩

theorem State.readReg_counter (s : State) {r : Reg} {c : Counter} (h : r.counter = some c) :
    s.readReg r = BitVec.ofNat 16 (s.stats.get c) := by
  cases r <;> cases h <;> rfl

theorem State.clearReg_counter (s : State) {r : Reg} {c : Counter} (h : r.counter = some c) :
    s.clearReg r = { s with stats := s.stats.set c (s.clearedTo c) } := by
  rw [State.clearReg, h]

/-- R185, R189: a READ row of a counter of 8 or 16 bits, or of JRN_PEAK. -/
theorem exec_readRow_counter {i : Instr} {l : Line} {op : Nat} {field n : BitVec 9} {r : Reg} {c : Counter} (s : State)
    (h : readRow s i = some (l, op, field, n)) (hr : regAt n.toNat = .word r) (hc : r.counter = some c)
    (hl : l.wf = true) (hs : s.hunting) :
    exec i s = .next
      { s.accessed n .invalid with
        stats := s.stats.set c (s.clearedTo c)
        out := s.out ++ [s.driven op field (BitVec.ofNat 16 (s.stats.get c))] } := by
  have ha := s.readAccess_word hr
  rw [s.readReg_counter hc, s.clearReg_counter hc] at ha
  exact exec_readRow_access s h hl hs ha

/-- R180: a read of ALERT_STAT's low half. -/
theorem exec_alertStatRead (s : State) (l : Line) (hl : l.wf = true) (hs : s.hunting) :
    exec (.alertStatRead l) s = .next
      { s.accessed 0x010 (.capture .alertStat (s.alert.status.setWidth 32)) with
        alert := { s.alert with status := 0 }
        out := s.out ++ [s.driven 1 0x010 (BitVec.ofNat 16 s.alert.status.toNat)] } := by
  have ha := s.readAccess_low (n := 0x010) (p := .alertStat) rfl
  rw [s.lowHalf_alertStat] at ha
  exact exec_readRow_access s rfl hl hs ha

/-- Settles O57, by the counter behind each register of the map. -/
theorem readsThatClear : Obligations.ReadsThatClear := by
  unfold Obligations.ReadsThatClear
  intro wide narrow
  refine ⟨fun t c d => ⟨fun _ => ?_, t.get_count_of_ne, fun n => ?_⟩, fun s l hl hs => ?_⟩
  · rw [t.get_count_self, c.max_eq]
  · rw [t.offerPeak_eq]
    exact ⟨t.get_set_self c n, t.get_set_of_ne n, t.get_set_self .jrnPeak _, t.get_set_of_ne _⟩
  · refine ⟨exec_alertStatRead s l hl hs, exec_readRow_counter s rfl (r := .jrnPeak) rfl rfl hl hs, fun n c h => ?_⟩
    have hmem : (n, c) ∈ zeroedCounters := h
    obtain ⟨r, rfl, hc, hpeak⟩ := mem_zeroedCounters hmem
    have hreg : regAt (BitVec.ofNat 9 r.number).toNat = .word r := by rw [r.toNat_field, regAt_reg]
    have hzero : s.clearedTo c = 0 := if_neg hpeak
    have hread := exec_readRow_counter (op := 1) (i := .counterRead l (BitVec.ofNat 9 r.number)) s rfl hreg hc hl hs
    rwa [hzero] at hread

end Sys2Proof.Machine


/-! ## One step: the front of the queue (log 6) -/

namespace Sys2Proof.Machine

/-- Log 6: with no command waiting, the block idles. -/
theorem step_of_pending_nil {s : State} (h : s.pending = []) : step s = .next s := by
  rw [step, h]

theorem step_of_pending_cons {s : State} {c : Instr} {rest : List Instr} (h : s.pending = c :: rest) :
    step s = exec c { s with pending := rest } := by
  rw [step, h]

/-- Settles O1, by the two forms of the queue. -/
theorem stepRunsTheFrontCommand : Obligations.StepRunsTheFrontCommand := by
  unfold Obligations.StepRunsTheFrontCommand
  exact ⟨fun _ _ _ => step_of_pending_cons, fun _ => step_of_pending_nil⟩

end Sys2Proof.Machine
